-- ==== Sys2Proof/Word.lean ====
section
/-! DEFINITION. The word of SECP-CORE: a 256-bit unsigned integer (spec/00_scope.md R9, R10). -/

namespace Sys2Proof

/-- A word: "an integer in [0, 2^256)" (R10). Every register, operand, result and command word is one (R9). -/
abbrev Word := BitVec 256

/-- The five words of an operand set: `v0` to `v4` are `L.v[0]` to `L.v[4]` (R25). -/
structure OperandWords where
  v0 : Word
  v1 : Word
  v2 : Word
  v3 : Word
  v4 : Word
  deriving DecidableEq, Repr

end Sys2Proof
end

