-- ==== Sys2Proof/Config.lean ====
section
/-! DEFINITION. What is fixed for the machine: the constant ROM (R30), and the open parameters `latency` and
`reset_data` (R9) as free values. -/

namespace Sys2Proof

/-- The six read-only words of the constant ROM (spec/10_state.md R30). "The command set, the opcode table and the
constants are configuration and are not writable" (R20), so they stand here and not in State
(DESIGN CHOICE, safe: log 7). -/
structure Rom where
  p  : Word
  a  : Word
  b  : Word
  n  : Word
  gx : Word
  gy : Word
  deriving DecidableEq, Repr

/-- The contents of the constant ROM: P (R5), the coefficients a = 0 and b = 7 (R6), the group order N (R7) and the
generator point (R8). No in-scope command reads `n`, `gx` or `gy` (R30). -/
def Config.rom : Rom where
  p  := 0xFFFFFFFFFFFFFFFFFFFFFFFFFFFFFFFFFFFFFFFFFFFFFFFFFFFFFFFEFFFFFC2F#256
  a  := 0#256
  b  := 7#256
  n  := 0xFFFFFFFFFFFFFFFFFFFFFFFFFFFFFFFEBAAEDCE6AF48A03BBFD25E8CD0364141#256
  gx := 0x79BE667EF9DCBBAC55A06295CE870B07029BFCDB2DCE28D959F2815B16F81798#256
  gy := 0x483ADA7726A3C4655DA4FBFC0E1108A8FD17B448A68554199C47D08FFB10D4B8#256

/-- FREE VALUE: the parameter `latency` (R9, R26, R141), counted in host lines that pass between an issue and its
completion step. It may depend on the opcode and the operands (R141, R142) and, through the count of commands issued
before, differ between equal commands. No body: nothing can be proved of its value, so a statement holds for every
finite latency (DESIGN CHOICE, safe: log 3). -/
opaque Config.latency (issued : Nat) (op : BitVec 8) (v : OperandWords) : Nat

/-- FREE VALUE: the parameter `reset_data` (R9, R34, I1), the word that a reset leaves in the register of this index, OPR0
to OPR4 at 0 to 4 and RES0 to RES2 at 5 to 7 (R40). `resets` counts the resets before, so that two resets may leave
different words. No body: no statement can rest on reset contents (R36) (DESIGN CHOICE, safe: log 5). -/
opaque Config.resetData (resets index : Nat) : Word

/-- FREE VALUE: the opcode that a reset leaves in the latch, "unspecified" (R34) (DESIGN CHOICE, safe: log 6). -/
opaque Config.resetLatchOp (resets : Nat) : BitVec 8

/-- FREE VALUE: the word that a reset leaves in `L.v[k]`, "unspecified" (R34) (DESIGN CHOICE, safe: log 6). -/
opaque Config.resetLatch (resets k : Nat) : Word

end Sys2Proof
end

