-- ==== Sys2Proof/Machine/Arith.lean ====
section
/-! DEFINITION. Exact integer arithmetic and its reductions (spec/00_scope.md R10, R11). -/

namespace Sys2Proof.Machine

/-- The integer of a word: all words are unsigned (R9, R10). -/
def uInt (w : Word) : Int := Int.ofNat w.toNat

/-- The word of an integer that a rule has reduced into [0, 2^256). -/
def toWord (v : Int) : Word := BitVec.ofInt 256 v

/-- The field modulus P of the ROM as an integer (R5, R30). -/
def romP : Int := uInt Config.rom.p

/-- `v mod P`, the residue in [0, P), also for a negative `v` (R11). -/
def modP (v : Int) : Int := v % romP

/-- `modz(v, m)`: `v mod m` when m > 0, and 0 when m = 0 (R11). -/
def modz (v : Int) (m : Word) : Int := if uInt m = 0 then 0 else v % uInt m

end Sys2Proof.Machine
end

