-- ==== Sys2Proof/Syntax.lean ====
section
/-! DEFINITION. The twelve commands of SECP-CORE, one constructor per row of spec/opcode_table.json. -/

namespace Sys2Proof

/-- A command (spec/30_encoding.md R59). "Commands have no immediates and no operand fields" (R58), so no constructor
has an argument: every operand comes from an operand register. -/
inductive Instr where
  /-- FADD, modular addition modulo P (R70). -/
  | fadd
  /-- FSUB, modular subtraction modulo P (R71). -/
  | fsub
  /-- FMUL, modular multiplication modulo P (R72). -/
  | fmul
  /-- ADDMOD, modular addition with an operand modulus (R73). -/
  | addmod
  /-- SUBMOD, modular subtraction with an operand modulus (R74). -/
  | submod
  /-- MULMOD, modular multiplication with an operand modulus (R75). -/
  | mulmod
  /-- FINV, the modular inverse modulo P (R81). -/
  | finv
  /-- ONCURVE, the generic Weierstrass membership test (R88). -/
  | oncurve
  /-- ONCURVEK1, the secp256k1 membership test (R89). -/
  | oncurvek1
  /-- TOJAC, the affine-to-Jacobian converter (R94). -/
  | tojac
  /-- TOAFF, the Jacobian-to-affine converter (R95). -/
  | toaff
  /-- JADD, mixed Jacobian-plus-affine point addition (R100). -/
  | jadd
  deriving DecidableEq, Repr

end Sys2Proof
end

