-- ==== Sys2Proof/WellFormed.lean ====
section
/-! DEFINITION. Which command words are valid, said apart from the decoder (R57), and which commands are well-formed. -/

namespace Sys2Proof

/-- A command word is well-formed when its reserved bits [255:8] are 0 and its opcode field [7:0] is one of the twelve
assigned values 0x01 to 0x0C (spec/30_encoding.md R57, R59). Said by arithmetic on the word's value, apart from the
decoder, so that the two can be held against each other. -/
def commandWordValid (v : Word) : Bool :=
  decide (v.toNat / 2 ^ 8 = 0) && decide (1 ≤ v.toNat % 2 ^ 8) && decide (v.toNat % 2 ^ 8 ≤ 12)

/-- Every command is well-formed: it has no field that could hold an illegal value (R58). -/
def Instr.wellFormed (_ : Instr) : Bool := true

end Sys2Proof
end

