-- ==== Sys2Proof/Decode.lean ====
section
/-! DEFINITION. The command word format and opcode map (spec/30_encoding.md R57 to R62): decoder, then encoder. -/

namespace Sys2Proof

/-- The answer of the decoder: it "has no third outcome" (R61). -/
inductive Decoded where
  /-- The word is the valid encoding of this command. -/
  | op (i : Instr)
  /-- The word is rejected with UnsupportedOperation (R62). -/
  | unsupported
  deriving DecidableEq, Repr

/-- Bits [7:0] of a command word, the field OPC (R57). -/
def opcField (v : Word) : BitVec 8 := v.extractLsb' 0 8

/-- Bits [255:8] of a command word, the field RSVD (R57). -/
def rsvdField (v : Word) : BitVec 248 := v.extractLsb' 8 248

/-- The opcode map (R59). Every value but 0x01 to 0x0C is unassigned (R62). -/
def decodeOpc (o : BitVec 8) : Decoded :=
  match o with
  | 0x01#8 => .op .fadd
  | 0x02#8 => .op .fsub
  | 0x03#8 => .op .fmul
  | 0x04#8 => .op .addmod
  | 0x05#8 => .op .submod
  | 0x06#8 => .op .mulmod
  | 0x07#8 => .op .finv
  | 0x08#8 => .op .oncurve
  | 0x09#8 => .op .oncurvek1
  | 0x0A#8 => .op .tojac
  | 0x0B#8 => .op .toaff
  | 0x0C#8 => .op .jadd
  | _ => .unsupported

/-- The decode function, total on all command words (R61): a nonzero RSVD or an unassigned OPC is rejected (R62). -/
def decode (v : Word) : Decoded :=
  if rsvdField v = 0#248 then decodeOpc (opcField v) else .unsupported

/-- The opcode of each command (R59). -/
def Instr.opc : Instr → BitVec 8
  | .fadd => 0x01#8
  | .fsub => 0x02#8
  | .fmul => 0x03#8
  | .addmod => 0x04#8
  | .submod => 0x05#8
  | .mulmod => 0x06#8
  | .finv => 0x07#8
  | .oncurve => 0x08#8
  | .oncurvek1 => 0x09#8
  | .tojac => 0x0A#8
  | .toaff => 0x0B#8
  | .jadd => 0x0C#8

/-- The command word of a command: RSVD = 0 above the opcode, `zext_256(OPC)` (R57, R65). -/
def encode (i : Instr) : Word := 0#248 ++ i.opc

/-- The bytes of a word in the order a host that serialises it uses: "most significant byte first, byte 0 of the
32-byte image holding bits [255:248]" (spec/20_memory.md R44). -/
def imageOfWord (w : Word) : List (BitVec 8) :=
  (List.range 32).map fun k => w.extractLsb' (8 * (31 - k)) 8

/-- The word of a 32-byte image (R44), and none for an image of any other length: no access sees part of a word (R45). -/
def wordOfImage (bytes : List (BitVec 8)) : Option Word :=
  if bytes.length = 32 then some (bytes.foldl (fun acc b => (acc <<< 8) ||| b.setWidth 256) 0#256) else none

/-- The decoder on a byte image: an image that is no whole word is rejected as well. -/
def decodeImage (bytes : List (BitVec 8)) : Decoded :=
  match wordOfImage bytes with
  | some v => decode v
  | none => .unsupported

/-- The command the decoder reads from the table word `w` of `nbits` bits, the bits above `nbits` being 0. A command
word is one whole 256-bit word with no byte order (R44, R55), so the table's numbering is the word's own. -/
def decodeTableWord (nbits w : Nat) : Option Instr :=
  match decode (BitVec.ofNat 256 (w % 2 ^ nbits)) with
  | .op i => some i
  | .unsupported => none

end Sys2Proof
end

