-- ==== Sys2Proof/Machine/State.lean ====
section
/-! DEFINITION. The state of SECP-CORE (spec/10_state.md R20 to R36) with the agents around it (spec/00_scope.md R15). -/

namespace Sys2Proof.Machine

/-- An operand or result register: its word, and the mark "written since reset" of R36. -/
structure Reg where
  value : Word
  written : Bool
  deriving DecidableEq, Repr

/-- The operand registers OPR0 to OPR4, register indices 0 to 4 (R23). -/
structure OprFile where
  r0 : Reg
  r1 : Reg
  r2 : Reg
  r3 : Reg
  r4 : Reg
  deriving DecidableEq, Repr

/-- The result registers RES0 to RES2, register indices 5 to 7 (R24). -/
structure ResFile where
  r0 : Reg
  r1 : Reg
  r2 : Reg
  deriving DecidableEq, Repr

/-- The hidden operand latch L: the opcode `L.op` and the words `L.v[0..4]` (R25). -/
structure Latch where
  op : BitVec 8
  v : OperandWords
  deriving DecidableEq, Repr

/-- The fields of STATUS (R29). The bits R29 does not list are hardwired to 0, so they are no state: `Status.word` in
Machine/Flags.lean gives the whole word (DESIGN CHOICE, safe: log 4). -/
structure Status where
  busy : Bool
  done : Bool
  err : Bool
  drop : Bool
  cause : BitVec 4
  deriving DecidableEq, Repr

/-- A STATUS field that a host script can test (R65). -/
inductive StatusField where
  | busy
  | done
  | err
  | drop
  | cause
  deriving DecidableEq, Repr

/-- One line of what stands around the core: a host transaction (R56), the host's own branch (R65) or the platform's
reset event (R130). The list of lines is the one total order in which they reach the port (R48; log 2, log 10). -/
inductive HostLine where
  /-- HT with WR = 0: `RegRead(idx)` (R41, R56). -/
  | read (idx : BitVec 4)
  /-- HT with WR = 1: `RegWrite(idx, data)` (R42, R56). -/
  | write (idx : BitVec 4) (data : Word)
  /-- `BNZ STATUS.f, label`: continue at line `target` if the field of the last `RD STATUS` is nonzero (R65). -/
  | bnz (field : StatusField) (target : Nat)
  /-- The platform's reset input (R130, R131). -/
  | platformReset
  deriving DecidableEq, Repr

/-- The host agent (R15), the MODEL'S OWN fields: its program, the line it stands at, the word its last RegRead
returned and the word its last `RD STATUS` returned (DESIGN CHOICE, safe: log 2, log 12). -/
structure HostAgent where
  script : List HostLine
  line : Nat
  readData : Option Word
  statusSeen : Option Word
  deriving DecidableEq, Repr

/-- When the completion step comes, the MODEL'S OWN fields (R26, R48, R141): host lines still to pass before it, the
latencies of the commands to come where a run fixes them, and the count of commands issued, which makes the free value
`Config.latency` fresh for each command (DESIGN CHOICE, safe: log 3). -/
structure Timing where
  wait : Nat
  delays : List Nat
  issued : Nat
  deriving DecidableEq, Repr

/-- The architectural state (R20), less the ROM (Config.rom), and the model's own `host`, `timing` and `resets`: the count
of resets before this one, which makes the free values `Config.resetData` fresh after each (log 5). SECP-CORE has no
memory and no program counter (R21, R22). -/
structure State where
  opr : OprFile
  res : ResFile
  cmd : Word
  status : Status
  latch : Latch
  host : HostAgent
  timing : Timing
  resets : Nat
  deriving DecidableEq, Repr

/-- Why the machine stops. -/
inductive Fault where
  /-- A host read of an operand or result register, by its index, that nothing has written since reset: "The model treats
  that read as a fault" (R36, R41). Raised by RegRead. SAFE. -/
  | unwrittenRead (idx : BitVec 4)
  /-- A command issued while an operand register it reads is unwritten: "In the model, issuing an accepted command whose
  operand registers (rule R63) include an unwritten one is a fault" (R60; R36, R133). Raised by an accepted CMD write;
  names the lowest such register (log 8). SAFE. -/
  | unwrittenOperand (i : Instr) (k : Fin 5)
  /-- A script line BNZ before any `RD STATUS`: R65 gives it no value to test. Raised by the host's branch. SAFE (log 11). -/
  | noStatusRead
  deriving DecidableEq, Repr

/-- Why the model gives no answer. -/
inductive Refusal where
  /-- The instruction has no meaning yet. Raised by exec's refused arms only (there are none). SAFE. -/
  | notModelled (mnemonic : String)
  /-- BUSY = 1 with an unassigned opcode in the latch, which no issue leaves: "EXEC is total on every op that can
  reach it" (R26). Raised by the completion step in states no run reaches. SAFE (log 13). -/
  | unassignedLatchOp (op : BitVec 8)
  deriving DecidableEq, Repr

/-- The register of this index after a reset: unwritten (R36), its word the free value `reset_data` (R34; log 5). -/
def Reg.atReset (resets index : Nat) : Reg := ⟨Config.resetData resets index, false⟩

/-- STATUS after reset: 0 (R34). -/
def Status.atReset : Status := ⟨false, false, false, false, 0#4⟩

/-- The latch after a reset: unspecified (R34), free values (log 6). -/
def Latch.atReset (resets : Nat) : Latch :=
  ⟨Config.resetLatchOp resets, ⟨Config.resetLatch resets 0, Config.resetLatch resets 1, Config.resetLatch resets 2,
    Config.resetLatch resets 3, Config.resetLatch resets 4⟩⟩

/-- The state after a reset that `resets` others came before (R34, R130, R132): STATUS = 0, CMD = 0, OPR and RES
unwritten; no host line waits. -/
def State.afterReset (resets : Nat) : State where
  opr := ⟨.atReset resets 0, .atReset resets 1, .atReset resets 2, .atReset resets 3, .atReset resets 4⟩
  res := ⟨.atReset resets 5, .atReset resets 6, .atReset resets 7⟩
  cmd := 0#256
  status := .atReset
  latch := .atReset resets
  host := ⟨[], 0, none, none⟩
  timing := ⟨0, [], 0⟩
  resets := resets

/-- The state right after the first reset. -/
def State.reset : State := .afterReset 0

end Sys2Proof.Machine
end

