-- ==== Sys2Proof/Machine/Flags.lean ====
section
/-! DEFINITION. STATUS: the word the host reads (spec/10_state.md R29) and the events that write it (R33). -/

namespace Sys2Proof.Machine

/-- STATUS as the host reads it: BUSY, DONE, ERR, DROP in bits 0 to 3, CAUSE in bits [11:8], and 0 in bits [7:4] and
[255:12] (R29). -/
def Status.word (st : Status) : Word :=
  0#244 ++ st.cause ++ 0#4 ++ BitVec.ofBool st.drop ++ BitVec.ofBool st.err ++ BitVec.ofBool st.done ++
    BitVec.ofBool st.busy

/-- An accepted CMD write: BUSY = 1 and every other field 0 (R33, R60). -/
def Status.accepted (_ : Status) : Status := ⟨true, false, false, false, 0#4⟩

/-- A rejected CMD write: ERR = 1, CAUSE = 1 (UnsupportedOperation), every other field 0 (R33, R110, R111). -/
def Status.rejected (_ : Status) : Status := ⟨false, false, true, false, 1#4⟩

/-- A dropped CMD write sets DROP and leaves every other field (R33, R60). -/
def Status.dropped (st : Status) : Status := { st with drop := true }

/-- A completion step clears BUSY and sets DONE, and leaves ERR, DROP and CAUSE (R26, R33). -/
def Status.completed (st : Status) : Status := { st with busy := false, done := true }

/-- Whether a field of a STATUS word is nonzero, as a script's BNZ tests it (R29, R65). -/
def fieldNonzero (f : StatusField) (w : Word) : Bool :=
  match f with
  | .busy => w.getLsbD 0
  | .done => w.getLsbD 1
  | .err => w.getLsbD 2
  | .drop => w.getLsbD 3
  | .cause => w.extractLsb' 8 4 != 0#4

end Sys2Proof.Machine
end

