-- ==== Sys2Proof/Machine/Operands.lean ====
section
/-! DEFINITION. Operands: the operand table (spec/30_encoding.md R63), the register index map (spec/20_memory.md R40) and
the register file. -/

namespace Sys2Proof

/-- `L.v[k]`. -/
def OperandWords.get (v : OperandWords) : Fin 5 → Word
  | 0 => v.v0
  | 1 => v.v1
  | 2 => v.v2
  | 3 => v.v3
  | 4 => v.v4

end Sys2Proof

namespace Sys2Proof.Machine

/-- Which operand registers a command reads (R63). The others are ignored (R23). -/
def operandsOf : Instr → List (Fin 5)
  | .fadd => [0, 1]
  | .fsub => [0, 1]
  | .fmul => [0, 1]
  | .addmod => [0, 1, 2]
  | .submod => [0, 1, 2]
  | .mulmod => [0, 1, 2]
  | .finv => [0]
  | .oncurve => [0, 1, 2, 3, 4]
  | .oncurvek1 => [0, 1]
  | .tojac => [0, 1]
  | .toaff => [0, 1, 2]
  | .jadd => [0, 1, 2, 3, 4]

/-- What a register index names (R32, R40). -/
inductive RegName where
  | opr (k : Fin 5)
  | res (k : Fin 3)
  | cmd
  | status
  | reserved
  deriving DecidableEq, Repr

/-- The register index map (R40): indices 10 to 15 are reserved. -/
def regName (idx : BitVec 4) : RegName :=
  match idx with
  | 0#4 => .opr 0
  | 1#4 => .opr 1
  | 2#4 => .opr 2
  | 3#4 => .opr 3
  | 4#4 => .opr 4
  | 5#4 => .res 0
  | 6#4 => .res 1
  | 7#4 => .res 2
  | 8#4 => .cmd
  | 9#4 => .status
  | _ => .reserved

/-- OPR[k]. -/
def OprFile.get (f : OprFile) : Fin 5 → Reg
  | 0 => f.r0
  | 1 => f.r1
  | 2 => f.r2
  | 3 => f.r3
  | 4 => f.r4

/-- `OPR[k] <- v`, and the register is written (R36, R42). -/
def OprFile.write (f : OprFile) (k : Fin 5) (v : Word) : OprFile :=
  match k with
  | 0 => { f with r0 := ⟨v, true⟩ }
  | 1 => { f with r1 := ⟨v, true⟩ }
  | 2 => { f with r2 := ⟨v, true⟩ }
  | 3 => { f with r3 := ⟨v, true⟩ }
  | 4 => { f with r4 := ⟨v, true⟩ }

/-- The words of all five operand registers, as an issue latches them (R25). -/
def OprFile.words (f : OprFile) : OperandWords :=
  ⟨f.r0.value, f.r1.value, f.r2.value, f.r3.value, f.r4.value⟩

/-- RES[k]. -/
def ResFile.get (f : ResFile) : Fin 3 → Reg
  | 0 => f.r0
  | 1 => f.r1
  | 2 => f.r2

/-- The lowest unwritten operand register among those the command reads (R36, R63). -/
def firstUnwritten (i : Instr) (f : OprFile) : Option (Fin 5) :=
  (operandsOf i).find? fun k => !(f.get k).written

end Sys2Proof.Machine
end

