-- ==== Sys2Proof/Machine/Ops.lean ====
section
/-! DEFINITION. The named operations on the state: completion (R26), the CMD write with its rejection (R60, R111), host
register accesses (R41, R42) and reset (R130). -/

namespace Sys2Proof.Machine

/-- The three results of EXEC (R26). -/
structure Results where
  r0 : Word
  r1 : Word
  r2 : Word
  deriving DecidableEq, Repr

/-- The completion step with these results (R26): RES0 to RES2 written and marked (R36) at once, BUSY cleared, DONE set. -/
def State.complete (s : State) (r : Results) : State :=
  { s with
    res := ⟨⟨r.r0, true⟩, ⟨r.r1, true⟩, ⟨r.r2, true⟩⟩
    status := s.status.completed }

/-- The latency of the next command in flight: the one a run fixes, else the free value (R9, R141; log 3). -/
def State.nextDelay (s : State) (op : BitVec 8) : Nat :=
  match s.timing.delays with
  | d :: _ => d
  | [] => Config.latency s.timing.issued op s.opr.words

/-- The issue of an accepted command word (R60): CMD, the latch of the opcode and all five operands (R25), STATUS. -/
def State.accept (s : State) (v : Word) : State :=
  { s with
    cmd := v
    status := s.status.accepted
    latch := ⟨opcField v, s.opr.words⟩
    timing := ⟨s.nextDelay (opcField v), s.timing.delays.tail, s.timing.issued + 1⟩ }

/-- TAKING THE ONE EXCEPTION: `raise UnsupportedOperation(v)` after `CMD <- v` and `STATUS.DROP <- 0` (R60, R111). It is
precise and saves nothing: no mode, vector or handler (R115). There is no return from it (R116): the next accepted
command word clears ERR and CAUSE, which is `State.accept`. -/
def State.raiseUnsupported (s : State) (v : Word) : State :=
  { s with cmd := v, status := s.status.rejected }

/-- A CMD write while BUSY = 1: dropped (R60, R135). -/
def State.dropWrite (s : State) : State :=
  { s with status := s.status.dropped }

/-- The issue of a command, which reads its operand registers: an unwritten one among them is a fault (R36, R60, R133). -/
def issue (i : Instr) (v : Word) (s : State) : Host.Outcome State Fault Refusal :=
  match firstUnwritten i s.opr with
  | some k => .fault (.unwrittenOperand i k)
  | none => .next (s.accept v)

/-- `CommandWrite(v)`, one atomic step checked in the order of R114 (R60). -/
def commandWrite (v : Word) (s : State) : Host.Outcome State Fault Refusal :=
  if s.status.busy then .next s.dropWrite
  else match decode v with
    | .unsupported => .next (s.raiseUnsupported v)
    | .op i => issue i v s

/-- `OPR[k] <- v` by the host, also while BUSY = 1 (R42, R138). -/
def State.writeOpr (s : State) (k : Fin 5) (v : Word) : State :=
  { s with opr := s.opr.write k v }

/-- `RegWrite(idx, v)` (R42). Writes to RES, STATUS and reserved indices have no effect (R43). -/
def regWrite (idx : BitVec 4) (v : Word) (s : State) : Host.Outcome State Fault Refusal :=
  match regName idx with
  | .opr k => .next (s.writeOpr k v)
  | .res _ => .next s
  | .cmd => commandWrite v s
  | .status => .next s
  | .reserved => .next s

/-- The word of the register at this index, 0 at a reserved one (R41). -/
def regWord (idx : BitVec 4) (s : State) : Word :=
  match regName idx with
  | .opr k => (s.opr.get k).value
  | .res k => (s.res.get k).value
  | .cmd => s.cmd
  | .status => s.status.word
  | .reserved => 0#256

/-- The mark of the register at this index (R36); CMD, STATUS and the reserved indices always hold a specified word. -/
def regWritten (idx : BitVec 4) (s : State) : Bool :=
  match regName idx with
  | .opr k => (s.opr.get k).written
  | .res k => (s.res.get k).written
  | .cmd => true
  | .status => true
  | .reserved => true

/-- `RegRead(idx)` (R41): the word the host gets, or the fault of an unwritten OPR or RES (R36). It changes no state of the
block. -/
def regRead (idx : BitVec 4) (s : State) : Except Fault Word :=
  if regWritten idx s then .ok (regWord idx s) else .error (.unwrittenRead idx)

/-- The platform's reset event (R130): every register of the block takes its reset value, a command in flight is
abandoned, the host goes on (log 10). -/
def State.platformReset (s : State) : State :=
  { State.afterReset (s.resets + 1) with host := s.host, timing := { s.timing with wait := 0 } }

end Sys2Proof.Machine
end

