-- ==== Sys2Proof/Machine/Field.lean ====
section
/-! DEFINITION. The modular adder and the modular multiplier (spec/40_field_arithmetic.md). -/

namespace Sys2Proof.Machine

/-- A command with one result writes 0 to RES1 and RES2 (R63). -/
def Results.one (r0 : Int) : Results := ⟨toWord r0, 0#256, 0#256⟩

/-- `EXEC(FADD)` (R70). -/
def faddResults (a b : Word) : Results := .one (modP (uInt a + uInt b))

/-- `EXEC(FSUB)` (R71): the exact residue, also for b > P. -/
def fsubResults (a b : Word) : Results := .one (modP (uInt a - uInt b))

/-- `EXEC(FMUL)` (R72). -/
def fmulResults (a b : Word) : Results := .one (modP (uInt a * uInt b))

/-- `EXEC(ADDMOD)` (R73). -/
def addmodResults (a b m : Word) : Results := .one (modz (uInt a + uInt b) m)

/-- `EXEC(SUBMOD)` (R74). -/
def submodResults (a b m : Word) : Results := .one (modz (uInt a - uInt b) m)

/-- `EXEC(MULMOD)` (R75). -/
def mulmodResults (a b m : Word) : Results := .one (modz (uInt a * uInt b) m)

/-- FADD (R70): a = L.v[0], b = L.v[1]. -/
def execFadd (s : State) : Host.Outcome State Fault Refusal :=
  .next (s.complete (faddResults s.latch.v.v0 s.latch.v.v1))

/-- FSUB (R71): a = L.v[0], b = L.v[1]. -/
def execFsub (s : State) : Host.Outcome State Fault Refusal :=
  .next (s.complete (fsubResults s.latch.v.v0 s.latch.v.v1))

/-- FMUL (R72): a = L.v[0], b = L.v[1]. -/
def execFmul (s : State) : Host.Outcome State Fault Refusal :=
  .next (s.complete (fmulResults s.latch.v.v0 s.latch.v.v1))

/-- ADDMOD (R73): a = L.v[0], b = L.v[1], m = L.v[2]. -/
def execAddmod (s : State) : Host.Outcome State Fault Refusal :=
  .next (s.complete (addmodResults s.latch.v.v0 s.latch.v.v1 s.latch.v.v2))

/-- SUBMOD (R74): a = L.v[0], b = L.v[1], m = L.v[2]. -/
def execSubmod (s : State) : Host.Outcome State Fault Refusal :=
  .next (s.complete (submodResults s.latch.v.v0 s.latch.v.v1 s.latch.v.v2))

/-- MULMOD (R75): a = L.v[0], b = L.v[1], m = L.v[2]. -/
def execMulmod (s : State) : Host.Outcome State Fault Refusal :=
  .next (s.complete (mulmodResults s.latch.v.v0 s.latch.v.v1 s.latch.v.v2))

end Sys2Proof.Machine
end

