-- ==== Sys2Proof/Machine/Adder.lean ====
section
/-! DEFINITION. The Jacobian point adder (spec/44_jacobian_adder.md). -/

namespace Sys2Proof.Machine

/-- `EXEC(JADD)` (R100), line for line: each line is one exact integer expression reduced once mod P. No input is
checked and no case is special (R99). -/
def jaddResults (x1 y1 z1 x2 y2 : Word) : Results :=
  let z1_2 := modP (uInt z1 * uInt z1)
  let h := modP (uInt x2 * z1_2 - uInt x1)
  let h_2 := modP (h * h)
  let i := modP (4 * h_2)
  let j := modP (h * i)
  let r := modP (2 * (uInt y2 * z1_2 * uInt z1 - uInt y1))
  let v := modP (uInt x1 * i)
  let x3 := modP (r * r - j - 2 * v)
  let y3 := modP (r * (v - x3) - 2 * uInt y1 * j)
  let z3 := modP ((uInt z1 + h) * (uInt z1 + h) - z1_2 - h_2)
  ⟨toWord x3, toWord y3, toWord z3⟩

/-- JADD (R100): x1, y1, z1, x2, y2 = L.v[0] to L.v[4]. -/
def execJadd (s : State) : Host.Outcome State Fault Refusal :=
  .next (s.complete (jaddResults s.latch.v.v0 s.latch.v.v1 s.latch.v.v2 s.latch.v.v3 s.latch.v.v4))

end Sys2Proof.Machine
end

