-- ==== Sys2Proof/Machine/Inverter.lean ====
section
/-! DEFINITION. The modular inverter (spec/41_modular_inverse.md). -/

namespace Sys2Proof.Machine

/-- The inverter's internal variables, unbounded integers that exist only inside one completion step (R31). `q` is
set anew in each iteration. -/
structure InvState where
  r : Int
  z : Int
  t : Int
  newT : Int
  deriving DecidableEq, Repr

/-- The variables before the first iteration (R80). -/
def InvState.start (z0 : Word) : InvState := ⟨romP, uInt z0, 0, 1⟩

/-- One iteration of the loop body (R80): rotate the Bézout pair, then the remainder pair. `q` is the floor quotient
`r div z`. -/
def InvState.iterate (s : InvState) : InvState :=
  let q := s.r / s.z
  { t := s.newT
    newT := modP (s.t + (romP - modP (q * s.newT)))
    r := s.z
    z := s.r - q * s.z }

/-- The loop `while z != 0` of R80 for at most `fuel` iterations; the zero test precedes any division. -/
def InvState.run : Nat → InvState → InvState
  | 0, s => s
  | fuel + 1, s => if s.z = 0 then s else InvState.run fuel s.iterate

/-- `ModularInverse(z0)` (R80): the final `t`. After at most one swapping iteration z strictly decreases (R82, R83), so
`z0 + 2` iterations are more than the loop ever takes (log 19). -/
def modularInverse (z0 : Word) : Int := (InvState.run (z0.toNat + 2) (.start z0)).t

/-- `EXEC(FINV)` (R81). -/
def finvResults (z0 : Word) : Results := .one (modularInverse z0)

/-- FINV (R81): z0 = L.v[0]. -/
def execFinv (s : State) : Host.Outcome State Fault Refusal :=
  .next (s.complete (finvResults s.latch.v.v0))

end Sys2Proof.Machine
end

