-- ==== Sys2Proof/Machine/Codec.lean ====
section
/-! DEFINITION. The affine-to-Jacobian and Jacobian-to-affine converters (spec/43_point_codec.md). -/

namespace Sys2Proof.Machine

/-- `EXEC(TOJAC)` (R94): no reduction, no validation. -/
def tojacResults (x y : Word) : Results := ⟨x, y, 1#256⟩

/-- `EXEC(TOAFF)` (R95): y' is formed by field multiplication with zInv^3, never by addition (R96). -/
def toaffResults (x y z : Word) : Results :=
  let zInv := modularInverse z
  ⟨toWord (modP (uInt x * zInv * zInv)), toWord (modP (uInt y * zInv * zInv * zInv)), 0#256⟩

/-- TOJAC (R94): x = L.v[0], y = L.v[1]. -/
def execTojac (s : State) : Host.Outcome State Fault Refusal :=
  .next (s.complete (tojacResults s.latch.v.v0 s.latch.v.v1))

/-- TOAFF (R95): x = L.v[0], y = L.v[1], z = L.v[2]. -/
def execToaff (s : State) : Host.Outcome State Fault Refusal :=
  .next (s.complete (toaffResults s.latch.v.v0 s.latch.v.v1 s.latch.v.v2))

end Sys2Proof.Machine
end

