-- ==== Sys2Proof/Machine/Curve.lean ====
section
/-! DEFINITION. The Weierstrass validator (spec/42_curve_validator.md). -/

namespace Sys2Proof.Machine

/-- `OnCurve(a, b, p, x, y)` (R87): each side is one exact integer polynomial, reduced once. -/
def onCurve (a b p x y : Word) : Bool :=
  decide (modz (uInt y * uInt y) p = modz (uInt x * uInt x * uInt x + uInt a * uInt x + uInt b) p)

/-- A boolean result: 1 for true, 0 for false, in RES0 (R88). -/
def Results.ofBool (c : Bool) : Results := .one (if c then 1 else 0)

/-- `EXEC(ONCURVE)` (R88). -/
def oncurveResults (a b p x y : Word) : Results := .ofBool (onCurve a b p x y)

/-- `EXEC(ONCURVEK1)` (R89): a, b and p from the ROM. -/
def oncurvek1Results (x y : Word) : Results := .ofBool (onCurve Config.rom.a Config.rom.b Config.rom.p x y)

/-- ONCURVE (R88): a, b, p, x, y = L.v[0] to L.v[4]. -/
def execOncurve (s : State) : Host.Outcome State Fault Refusal :=
  .next (s.complete (oncurveResults s.latch.v.v0 s.latch.v.v1 s.latch.v.v2 s.latch.v.v3 s.latch.v.v4))

/-- ONCURVEK1 (R89): x = L.v[0], y = L.v[1]. -/
def execOncurvek1 (s : State) : Host.Outcome State Fault Refusal :=
  .next (s.complete (oncurvek1Results s.latch.v.v0 s.latch.v.v1))

end Sys2Proof.Machine
end

