-- ==== Sys2Proof/Machine/Dispatch.lean ====
section
/-! DEFINITION. The dispatch of a command to its meaning, the completion step of R26 for each opcode. -/

namespace Sys2Proof.Machine

/-- The core's completion step of the command `i` on the latched operands (R26). -/
def exec (i : Instr) (s : State) : Host.Outcome State Fault Refusal :=
  match i with
  | .fadd => Sys2Proof.Machine.execFadd s
  | .fsub => Sys2Proof.Machine.execFsub s
  | .fmul => Sys2Proof.Machine.execFmul s
  | .addmod => Sys2Proof.Machine.execAddmod s
  | .submod => Sys2Proof.Machine.execSubmod s
  | .mulmod => Sys2Proof.Machine.execMulmod s
  | .finv => Sys2Proof.Machine.execFinv s
  | .oncurve => Sys2Proof.Machine.execOncurve s
  | .oncurvek1 => Sys2Proof.Machine.execOncurvek1 s
  | .tojac => Sys2Proof.Machine.execTojac s
  | .toaff => Sys2Proof.Machine.execToaff s
  | .jadd => Sys2Proof.Machine.execJadd s

end Sys2Proof.Machine
end

