-- ==== Sys2Proof/Machine/Agents.lean ====
section
/-! DEFINITION. The two agents (spec/00_scope.md R15): the core's one step, the host's lines, and whose turn it is. -/

namespace Sys2Proof.Machine

/-- The host has no line left. -/
def hostFinished (s : State) : Bool := decide (s.host.script.length ≤ s.host.line)

/-- The completion step comes now: it is enabled only while BUSY = 1 (R26), after `wait` host lines or when the host has
none left, so it always comes (R26, R48; log 3). -/
def coreTurn (s : State) : Bool := s.status.busy && (decide (s.timing.wait = 0) || hostFinished s)

/-- The core's completion step: EXEC of the latched opcode (R26). -/
def coreMove (s : State) : Host.Outcome State Fault Refusal :=
  match decodeOpc s.latch.op with
  | .op i => exec i s
  | .unsupported => .refused (.unassignedLatchOp s.latch.op)

/-- The host passes one line: its place advances, and the latency of a command in flight runs (R48). -/
def State.tick (s : State) : State :=
  { s with host := { s.host with line := s.host.line + 1 }, timing := { s.timing with wait := s.timing.wait - 1 } }

/-- The host gets the word of a RegRead; a read of STATUS is kept for BNZ (R41, R65). -/
def State.received (s : State) (idx : BitVec 4) (w : Word) : State :=
  { s with
    host := { s.host with
      readData := some w
      statusSeen := if regName idx = .status then some w else s.host.statusSeen } }

/-- The host goes on at another line (R65). -/
def State.jump (s : State) (target : Nat) : State := { s with host := { s.host with line := target } }

/-- One host line (R41, R42, R65, R130). -/
def hostAct (l : HostLine) (s : State) : Host.Outcome State Fault Refusal :=
  match l with
  | .read idx =>
    match regRead idx s with
    | .ok w => .next (s.received idx w)
    | .error f => .fault f
  | .write idx v => regWrite idx v s
  | .bnz f target =>
    match s.host.statusSeen with
    | some w => .next (if fieldNonzero f w then s.jump target else s)
    | none => .fault .noStatusRead
  | .platformReset => .next s.platformReset

/-- The host's next line; with none left and no command in flight the block is quiescent and nothing changes (R143;
log 9). -/
def hostMove (s : State) : Host.Outcome State Fault Refusal :=
  match s.host.script[s.host.line]? with
  | some l => hostAct l s.tick
  | none => .next s

/-- The state in which the core's next step performs the command word `v`: what an accepted CMD write of it leaves
(R60), its completion due at once. A word that is no command leaves its rejection (R111; log 14). -/
def State.placeCommand (s : State) (v : Word) : State :=
  match decode v with
  | .op _ => { s.accept v with timing := { s.timing with wait := 0 } }
  | .unsupported => s.raiseUnsupported v

/-- The state with a host program to run from its first line (log 14). -/
def State.withScript (s : State) (lines : List HostLine) : State :=
  { s with host := ⟨lines, 0, none, none⟩ }

end Sys2Proof.Machine
end

