-- ==== Sys2Proof/Machine/Step.lean ====
section
/-! DEFINITION. One step of the machine: a completion step or a host line (spec/20_memory.md R48). -/

namespace Sys2Proof.Machine

/-- One event of the total order of host accesses and completion steps (R48). -/
def step (s : State) : Host.Outcome State Fault Refusal :=
  if coreTurn s then coreMove s else hostMove s

/-- `s` with the command word `w` in flight and its completion step next: SECP-CORE fetches nothing (R22), the core's
next instruction is the one the latch holds (log 14). -/
def State.withFetchWord (s : State) (nbits w : Nat) : State :=
  s.placeCommand (BitVec.ofNat 256 (w % 2 ^ nbits))

end Sys2Proof.Machine
end

