-- ==== Sys2Proof/Machine/Script.lean ====
section
/-! DEFINITION. The host script notation (spec/30_encoding.md R65, R66): its lines, and what each expands to. No line of
it is a command of SECP-CORE (R67). -/

namespace Sys2Proof.Machine

/-- A line of a host script (R65) or one of its two pseudo-instructions (R66). -/
inductive ScriptLine where
  /-- `WR OPRk, v`. -/
  | wrOpr (k : Fin 5) (v : Word)
  /-- `RD OPRk`. -/
  | rdOpr (k : Fin 5)
  /-- `RD RESk`. -/
  | rdRes (k : Fin 3)
  /-- `RD CMD`. -/
  | rdCmd
  /-- `RD STATUS`. -/
  | rdStatus
  /-- `ISSUE MNEM`. -/
  | issue (i : Instr)
  /-- `WR CMD, v`, any raw word. -/
  | wrCmd (v : Word)
  /-- `label:` names the next line. -/
  | label (name : String)
  /-- `BNZ STATUS.f, label`. -/
  | bnz (f : StatusField) (name : String)
  /-- `WAIT`. -/
  | wait
  /-- `CALL MNEM v0, ..., vk`. -/
  | call (i : Instr) (vs : List Word)
  deriving DecidableEq, Repr

/-- The register index of OPRk (R40). -/
def oprIndex (k : Fin 5) : BitVec 4 := BitVec.ofNat 4 k.val

/-- The register index of RESk (R40). -/
def resIndex (k : Fin 3) : BitVec 4 := BitVec.ofNat 4 (5 + k.val)

/-- The register index of CMD (R40). -/
def cmdIndex : BitVec 4 := 8#4

/-- The register index of STATUS (R40). -/
def statusIndex : BitVec 4 := 9#4

/-- WAIT at line `n`: poll STATUS until BUSY = 0 (R66). The label `w` of R66's expansion is each WAIT's own: it stands here
as the line number `n` and names nothing for the rest of the script (DESIGN CHOICE, safe: log 17). -/
def waitLines (n : Nat) : List HostLine := [.read statusIndex, .bnz .busy n]

/-- The writes that open a CALL: `WR OPRj, vj` for each operand register the command reads (R66). -/
def operandLines (ks : List (Fin 5)) (vs : List Word) : List HostLine :=
  (ks.zip vs).map fun kv => .write (oprIndex kv.1) kv.2

/-- How many host lines a script line expands to (R65, R66). -/
def ScriptLine.size : ScriptLine → Nat
  | .label _ => 0
  | .wait => 2
  | .call _ vs => vs.length + 6
  | _ => 1

/-- The host line a label names: the position of the next line, counting from `n` (R65). The first of two equal labels
counts, and only the script's own `label:` lines define labels, never the `w` inside a WAIT or a CALL (DESIGN CHOICE, safe:
log 17). -/
def labelLine (name : String) : Nat → List ScriptLine → Option Nat
  | _, [] => none
  | n, .label m :: rest => if m = name then some n else labelLine name n rest
  | n, l :: rest => labelLine name (n + l.size) rest

/-- What a script line at host line `n` of the script `all` expands to (R65, R66). No answer for a branch to a label
the script lacks, or a CALL with another number of values than the command reads (R66; log 17). -/
def ScriptLine.expand (all : List ScriptLine) (n : Nat) : ScriptLine → Option (List HostLine)
  | .wrOpr k v => some [.write (oprIndex k) v]
  | .rdOpr k => some [.read (oprIndex k)]
  | .rdRes k => some [.read (resIndex k)]
  | .rdCmd => some [.read cmdIndex]
  | .rdStatus => some [.read statusIndex]
  | .issue i => some [.write cmdIndex (encode i)]
  | .wrCmd v => some [.write cmdIndex v]
  | .label _ => some []
  | .bnz f name => (labelLine name 0 all).map fun target => [.bnz f target]
  | .wait => some (waitLines n)
  | .call i vs =>
    if vs.length = (operandsOf i).length then
      some (operandLines (operandsOf i) vs ++ [.write cmdIndex (encode i)] ++ waitLines (n + vs.length + 1) ++
        [.read (resIndex 0), .read (resIndex 1), .read (resIndex 2)])
    else none

/-- The host lines of the lines `rest` of the script `all`, from host line `n` on. -/
def assembleFrom (all : List ScriptLine) : Nat → List ScriptLine → Option (List HostLine)
  | _, [] => some []
  | n, l :: rest =>
    match l.expand all n, assembleFrom all (n + l.size) rest with
    | some here, some more => some (here ++ more)
    | _, _ => none

/-- The host program a script stands for (R65, R66). -/
def assemble (script : List ScriptLine) : Option (List HostLine) := assembleFrom script 0 script

end Sys2Proof.Machine
end

