-- ==== Sys2Proof/Safety.lean ====
section
/-! DEFINITION. The terms claims use: EXEC as one function, the legal states, and when results may be trusted. -/

namespace Sys2Proof.Machine

/-- `EXEC(op, L.v[0..4])` as one function of the command and the latched words (R26, R27). -/
def execResults (i : Instr) (v : OperandWords) : Results :=
  match i with
  | .fadd => faddResults v.v0 v.v1
  | .fsub => fsubResults v.v0 v.v1
  | .fmul => fmulResults v.v0 v.v1
  | .addmod => addmodResults v.v0 v.v1 v.v2
  | .submod => submodResults v.v0 v.v1 v.v2
  | .mulmod => mulmodResults v.v0 v.v1 v.v2
  | .finv => finvResults v.v0
  | .oncurve => oncurveResults v.v0 v.v1 v.v2 v.v3 v.v4
  | .oncurvek1 => oncurvek1Results v.v0 v.v1
  | .tojac => tojacResults v.v0 v.v1
  | .toaff => toaffResults v.v0 v.v1 v.v2
  | .jadd => jaddResults v.v0 v.v1 v.v2 v.v3 v.v4

/-- The words RES0 to RES2 hold. -/
def ResFile.results (f : ResFile) : Results := ⟨f.r0.value, f.r1.value, f.r2.value⟩

/-- All three result registers are written (R36). -/
def ResFile.written (f : ResFile) : Bool := f.r0.written && f.r1.written && f.r2.written

/-- None of the three result registers is written (R36). -/
def ResFile.unwritten (f : ResFile) : Bool := !f.r0.written && !f.r1.written && !f.r2.written

/-- The legal values of STATUS: "ERR = 1 if and only if CAUSE ≠ 0. BUSY and DONE are never both 1. BUSY and ERR are
never both 1" (R29), and "codes 2 to 15 are never produced" (R110). -/
abbrev Status.legal (st : Status) : Prop :=
  (st.err = true ↔ st.cause ≠ 0#4) ∧ ¬(st.busy = true ∧ st.done = true) ∧ ¬(st.busy = true ∧ st.err = true) ∧
    (st.cause = 0#4 ∨ st.cause = 1#4)

/-- What the events of R33 leave besides: a rejection clears DONE and DROP, and DROP is set only while a command is in
flight and kept by its completion. -/
abbrev Status.reachable (st : Status) : Prop :=
  st.legal ∧ ¬(st.err = true ∧ st.done = true) ∧ ¬(st.err = true ∧ st.drop = true) ∧
    (st.drop = true → st.busy = true ∨ st.done = true)

/-- The operand registers the latched command reads are written (R36). -/
def latchedOperandsWritten (s : State) : Bool :=
  match decodeOpc s.latch.op with
  | .op i => firstUnwritten i s.opr == none
  | .unsupported => false

/-- The invariant of the control state: STATUS is legal; while a command is in flight or done, CMD holds the word whose
opcode the latch holds, an assigned one ("The issue that enabled this step checked L.op", R26); after a rejection CMD
holds a word that is no command (R111); RES0 to RES2 are written together, and are written once DONE = 1 (R36); while a
command is in flight, the operand registers it reads are written, as its issue asked (R36, R60). -/
abbrev State.Inv (s : State) : Prop :=
  s.status.reachable ∧
  (s.status.busy = true ∨ s.status.done = true →
    s.cmd = 0#248 ++ s.latch.op ∧ decodeOpc s.latch.op ≠ .unsupported) ∧
  (s.status.err = true → decode s.cmd = .unsupported) ∧
  (s.res.written = true ∨ s.res.unwritten = true) ∧
  (s.status.done = true → s.res.written = true) ∧
  (s.status.busy = true → latchedOperandsWritten s = true)

/-- "When DONE = 1, RES0..RES2 hold the results of the last accepted command" (R29). -/
def State.ResultsVouched (s : State) : Prop :=
  s.status.done = true → ∃ i, decode s.cmd = .op i ∧ s.res.results = execResults i s.latch.v

/-- The block is quiescent: no agent other than the host has an enabled step (R143). -/
def State.quiescent (s : State) : Bool := !s.status.busy

/-- A safe step: it answers a next state, no fault and no refusal. -/
def safeStep (s : State) : Prop := ∃ t, step s = .next t

/-- Two contents of a register agree in the mark, and in the word if it is written (R36). -/
def Reg.agree (r r' : Reg) : Prop := r'.written = r.written ∧ (r.written = true → r'.value = r.value)

/-- Two states that differ at most in unspecified contents (R34, R36): the words of unwritten registers, and of the latch
what no step reads, that is all of it while BUSY = 0, and the words of operands the command in flight does not read. -/
def State.agreeButResetData (s s' : State) : Prop :=
  (∀ k, (s.opr.get k).agree (s'.opr.get k)) ∧ (∀ k, (s.res.get k).agree (s'.res.get k)) ∧
  s'.cmd = s.cmd ∧ s'.status = s.status ∧ s'.host = s.host ∧ s'.timing = s.timing ∧ s'.resets = s.resets ∧
  (s.status.busy = true → s'.latch.op = s.latch.op ∧
    ∀ i, decodeOpc s.latch.op = .op i → ∀ k ∈ operandsOf i, s'.latch.v.get k = s.latch.v.get k)

end Sys2Proof.Machine
end

