-- ==== Sys2Proof/Certificates/Slice0/Obligations.lean ====
section
/-! DEFINITION. The statements for the provers, from the numbered rules of spec/, and the few terms they are said in. -/

namespace Sys2Proof.Claims

open Sys2Proof.Machine

/-- P in the source's second form, 2^256 - 2^32 - 977 (R5), said apart from the ROM's literal. -/
def fieldModulus : Nat := 2 ^ 256 - 2 ^ 32 - 977

/-- `exec i s` answers the completion step with these results and changes nothing else (R26, R33, R36): the whole next
state is said, so this is the frame as well. -/
def CompletesWith (i : Instr) (s : State) (r : Results) : Prop :=
  exec i s = .next { s with
    res := ⟨⟨r.r0, true⟩, ⟨r.r1, true⟩, ⟨r.r2, true⟩⟩
    status := { s.status with busy := false, done := true } }

/-- The loop of R80 as a relation: from the variables r, z, t, newT the loop ends and returns the last argument. -/
inductive InverterRun : Int → Int → Int → Int → Int → Prop where
  /-- `z == 0`: the loop ends and t is returned. -/
  | ends (r t newT : Int) : InverterRun r 0 t newT t
  /-- One turn of the body with q = r div z, the newT update reading the pre-rotation t and newT. -/
  | turn (r z t newT res : Int) : z ≠ 0 →
      InverterRun z (r - r / z * z) newT
        ((t + (fieldModulus - (r / z * newT) % fieldModulus)) % fieldModulus) res →
      InverterRun r z t newT res

/-- No completion step comes now and the host stands at this line (R48). -/
def HostAt (s : State) (l : HostLine) : Prop :=
  coreTurn s = false ∧ s.host.script[s.host.line]? = some l

/-- Whether a field of STATUS is nonzero (R29), said of the fields, not of the word. -/
def statusField (f : StatusField) (st : Status) : Bool :=
  match f with
  | .busy => st.busy
  | .done => st.done
  | .err => st.err
  | .drop => st.drop
  | .cause => decide (st.cause ≠ 0#4)

/-- The block's own state (R20) is the same; the host and the passing of time are not looked at. -/
def SameBlock (s t : State) : Prop :=
  t.opr = s.opr ∧ t.res = s.res ∧ t.cmd = s.cmd ∧ t.status = s.status ∧ t.latch = s.latch

end Sys2Proof.Claims

open Sys2Proof Sys2Proof.Machine Sys2Proof.Claims

/-! ## Constants and encoding -/

/-- R5, R6: the ROM's P is the literal of R5 and is 2^256 - 2^32 - 977, a = 0, b = 7; the other rows of the ROM table: N
is the literal of R7, G_x and G_y are the literals of R8; and (R8) G has coordinates below P and satisfies
y^2 ≡ x^3 + 7 (mod P). -/
def Obligations.RomHoldsTheCurve : Prop :=
  Config.rom.p = 0xFFFFFFFFFFFFFFFFFFFFFFFFFFFFFFFFFFFFFFFFFFFFFFFFFFFFFFFEFFFFFC2F#256 ∧
    Config.rom.p.toNat = fieldModulus ∧ Config.rom.a = 0#256 ∧ Config.rom.b = 7#256 ∧
    Config.rom.n = 0xFFFFFFFFFFFFFFFFFFFFFFFFFFFFFFFEBAAEDCE6AF48A03BBFD25E8CD0364141#256 ∧
    Config.rom.gx = 0x79BE667EF9DCBBAC55A06295CE870B07029BFCDB2DCE28D959F2815B16F81798#256 ∧
    Config.rom.gy = 0x483ADA7726A3C4655DA4FBFC0E1108A8FD17B448A68554199C47D08FFB10D4B8#256 ∧
    Config.rom.gx.toNat < fieldModulus ∧ Config.rom.gy.toNat < fieldModulus ∧
    Config.rom.gy.toNat ^ 2 % fieldModulus = (Config.rom.gx.toNat ^ 3 + 7) % fieldModulus

/-- R59: the twelve assigned command words, written out, decode to their commands, and every other opcode value, 0x00
and 0x0D to 0xFF, is unassigned. -/
def Obligations.OpcodeMapDecodes : Prop :=
  decode 0x01#256 = .op .fadd ∧ decode 0x02#256 = .op .fsub ∧ decode 0x03#256 = .op .fmul ∧
    decode 0x04#256 = .op .addmod ∧ decode 0x05#256 = .op .submod ∧ decode 0x06#256 = .op .mulmod ∧
    decode 0x07#256 = .op .finv ∧ decode 0x08#256 = .op .oncurve ∧ decode 0x09#256 = .op .oncurvek1 ∧
    decode 0x0A#256 = .op .tojac ∧ decode 0x0B#256 = .op .toaff ∧ decode 0x0C#256 = .op .jadd ∧
    ∀ o : BitVec 8, o.toNat = 0 ∨ 0x0D ≤ o.toNat → decodeOpc o = .unsupported

/-- R57, R61: over all 2^256 words, a word decodes to a command exactly if it is that command's encoding. -/
def Obligations.DecodeAndEncodeAgree : Prop :=
  ∀ (v : Word) (i : Instr), decode v = .op i ↔ v = encode i

/-- R57: "A CW is valid if and only if RSVD = 0 and OPC is one of the twelve assigned opcodes": the arithmetic check
holds exactly of the words that decode to a command, and every other word is unsupported (R61). -/
def Obligations.ValidWordsAreTheDecodedOnes : Prop :=
  ∀ v : Word, (commandWordValid v = true ↔ ∃ i, decode v = .op i) ∧
    (commandWordValid v = false ↔ decode v = .unsupported)

/-- R44: a host's 32-byte image, most significant byte first, and the word it stands for determine each other. -/
def Obligations.ByteImageRoundTrip : Prop :=
  (∀ w : Word, wordOfImage (imageOfWord w) = some w ∧ (imageOfWord w)[0]? = some (w.extractLsb' 248 8)) ∧
    ∀ (bytes : List (BitVec 8)) (w : Word), wordOfImage bytes = some w → imageOfWord w = bytes

/-! ## The modular adder and multiplier -/

/-- R70: FADD. -/
def Obligations.FaddAddsModuloP : Prop :=
  decode 0x01#256 = .op .fadd ∧ ∀ s : State, ∃ r0 : Word,
    r0.toNat = (s.latch.v.v0.toNat + s.latch.v.v1.toNat) % fieldModulus ∧
    CompletesWith .fadd s ⟨r0, 0#256, 0#256⟩

/-- R71: FSUB, the non-negative residue of the exact difference. -/
def Obligations.FsubSubtractsModuloP : Prop :=
  decode 0x02#256 = .op .fsub ∧ ∀ s : State, ∃ r0 : Word,
    (r0.toNat : Int) = ((s.latch.v.v0.toNat : Int) - s.latch.v.v1.toNat) % fieldModulus ∧
    CompletesWith .fsub s ⟨r0, 0#256, 0#256⟩

/-- R72: FMUL, the exact product reduced. -/
def Obligations.FmulMultipliesModuloP : Prop :=
  decode 0x03#256 = .op .fmul ∧ ∀ s : State, ∃ r0 : Word,
    r0.toNat = (s.latch.v.v0.toNat * s.latch.v.v1.toNat) % fieldModulus ∧
    CompletesWith .fmul s ⟨r0, 0#256, 0#256⟩

/-- R73: ADDMOD, 0 for m = 0. -/
def Obligations.AddmodAddsModuloOperand : Prop :=
  decode 0x04#256 = .op .addmod ∧ ∀ s : State, ∃ r0 : Word,
    r0.toNat = (if s.latch.v.v2.toNat = 0 then 0
      else (s.latch.v.v0.toNat + s.latch.v.v1.toNat) % s.latch.v.v2.toNat) ∧
    CompletesWith .addmod s ⟨r0, 0#256, 0#256⟩

/-- R74: SUBMOD, the non-negative residue of the exact difference, 0 for m = 0. -/
def Obligations.SubmodSubtractsModuloOperand : Prop :=
  decode 0x05#256 = .op .submod ∧ ∀ s : State, ∃ r0 : Word,
    (r0.toNat : Int) = (if s.latch.v.v2.toNat = 0 then 0
      else ((s.latch.v.v0.toNat : Int) - s.latch.v.v1.toNat) % s.latch.v.v2.toNat) ∧
    CompletesWith .submod s ⟨r0, 0#256, 0#256⟩

/-- R75: MULMOD, 0 for m = 0. -/
def Obligations.MulmodMultipliesModuloOperand : Prop :=
  decode 0x06#256 = .op .mulmod ∧ ∀ s : State, ∃ r0 : Word,
    r0.toNat = (if s.latch.v.v2.toNat = 0 then 0
      else (s.latch.v.v0.toNat * s.latch.v.v1.toNat) % s.latch.v.v2.toNat) ∧
    CompletesWith .mulmod s ⟨r0, 0#256, 0#256⟩

/-- The consequences the spec draws under R76 ("each derived from the rules above", R70 to R75): FADD and FMUL commute,
FSUB(a, b) = FADD(a, FSUB(0, b)), and with m = P the operand-modulus commands equal the fixed-modulus ones. -/
def Obligations.FieldArithmeticLaws : Prop :=
  ∀ a b : Word,
    faddResults a b = faddResults b a ∧ fmulResults a b = fmulResults b a ∧
    fsubResults a b = faddResults a (fsubResults 0#256 b).r0 ∧
    addmodResults a b Config.rom.p = faddResults a b ∧
    submodResults a b Config.rom.p = fsubResults a b ∧
    mulmodResults a b Config.rom.p = fmulResults a b

/-- The spec's inference under R77 (from R71 and R74): "Whenever 0 ≤ b ≤ M, it equals (a − b) mod M": the source's form (a + (M - b)) mod M, for M > 0, is the result of SUBMOD, and with M = P of FSUB. -/
def Obligations.SourceSubtractionFormAgrees : Prop :=
  ∀ a b m : Word, 0 < m.toNat → b.toNat ≤ m.toNat →
    (submodResults a b m).r0.toNat = (a.toNat + (m.toNat - b.toNat)) % m.toNat ∧
    (m = Config.rom.p → (fsubResults a b).r0.toNat = (a.toNat + (m.toNat - b.toNat)) % m.toNat)

/-- "Each result is the unique residue in [0, modulus)" (R76), over all commands (R81, R88, R95, R100): each result of a command with the fixed modulus (TOJAC, which reduces nothing, apart) is below
P, each result of a command with an operand modulus m > 0 below m. -/
def Obligations.ResultsAreReduced : Prop :=
  ∀ v : OperandWords,
    (∀ i ∈ [Instr.fadd, .fsub, .fmul, .finv, .oncurve, .oncurvek1, .toaff, .jadd],
      (execResults i v).r0.toNat < fieldModulus ∧ (execResults i v).r1.toNat < fieldModulus ∧
        (execResults i v).r2.toNat < fieldModulus) ∧
    (0 < v.v2.toNat → ∀ i ∈ [Instr.addmod, .submod, .mulmod], (execResults i v).r0.toNat < v.v2.toNat)

/-! ## The modular inverter -/

/-- R80, R81: FINV returns what the loop of R80 returns, for every input. -/
def Obligations.FinvRunsTheLoop : Prop :=
  decode 0x07#256 = .op .finv ∧ ∀ s : State, ∃ r0 : Word,
    InverterRun fieldModulus s.latch.v.v0.toNat 0 1 r0.toNat ∧ CompletesWith .finv s ⟨r0, 0#256, 0#256⟩

/-- R84: for every 0 < z0 < P the result t is the inverse of z0, 1 ≤ t < P. -/
def Obligations.FinvIsTheInverse : Prop :=
  ∀ s : State, 0 < s.latch.v.v0.toNat → s.latch.v.v0.toNat < fieldModulus →
    ∃ t : Word, 1 ≤ t.toNat ∧ t.toNat < fieldModulus ∧ s.latch.v.v0.toNat * t.toNat % fieldModulus = 1 ∧
      CompletesWith .finv s ⟨t, 0#256, 0#256⟩

/-- The spec's inference under R85 (from R80): FINV(P) = 1 after one iteration; for P < z0 < 2^256 the first iteration
swaps the remainders, the second reaches the initial state for z0 - P, so FINV(z0) = FINV(z0 - P), and
0 < z0 - P < 2^32 + 977; z0 · FINV(z0) ≡ 1 for every z0 but 0 and P, the only 256-bit multiples of P. -/
def Obligations.FinvAtAndAboveP : Prop :=
  ((InvState.run 1 (.start Config.rom.p)).t = 1 ∧ (InvState.run 1 (.start Config.rom.p)).z = 0 ∧
    (finvResults Config.rom.p).r0 = 1#256) ∧
    (∀ z0 d : Word, z0.toNat = fieldModulus + d.toNat → 0 < d.toNat →
      InvState.run 1 (.start z0) = ⟨z0.toNat, fieldModulus, 1, 0⟩ ∧ InvState.run 2 (.start z0) = .start d ∧
      finvResults z0 = finvResults d ∧ d.toNat < 2 ^ 32 + 977) ∧
    ∀ z0 : Word, z0 ≠ 0#256 → z0 ≠ Config.rom.p →
      z0.toNat % fieldModulus ≠ 0 ∧ z0.toNat * (finvResults z0).r0.toNat % fieldModulus = 1

/-- R86: FINV(0) = 0: for z0 = 0 the loop body never executes, however many iterations are allowed (the zero test comes
first), and the initial t = 0 is returned. -/
def Obligations.FinvOfZeroIsZero : Prop :=
  (∀ n : Nat, InvState.run n (.start 0#256) = .start 0#256) ∧ (InvState.start 0#256).t = 0 ∧
    ∀ s : State, s.latch.v.v0 = 0#256 → CompletesWith .finv s ⟨0#256, 0#256, 0#256⟩

/-- R83, with its bound "[from general knowledge, not in source]" (93 G1): the loop ends within the model's fuel on every
input (log 19), after at most 369 iterations for 0 < z0 < P and at most 2 more for z0 > P. -/
def Obligations.InverterIterationsBounded : Prop :=
  ∀ z0 : Word, (InvState.run (z0.toNat + 2) (.start z0)).z = 0 ∧
    (0 < z0.toNat → z0.toNat < fieldModulus → (InvState.run 369 (.start z0)).z = 0) ∧
    (fieldModulus < z0.toNat → (InvState.run 371 (.start z0)).z = 0)

/-- The spec's inference under R82 (from R80): after any number of iterations every variable is non-negative, t and newT are below P, r and z at most
max(P, z0) < 2^256, the remainders stay ordered but for the first swap, and each quotient is at most P. -/
def Obligations.InverterVariablesInRange : Prop :=
  ∀ (z0 : Word) (n : Nat), let st := InvState.run n (.start z0)
    0 ≤ st.t ∧ st.t < fieldModulus ∧ 0 ≤ st.newT ∧ st.newT < fieldModulus ∧
    0 < st.r ∧ st.r ≤ max (fieldModulus : Int) z0.toNat ∧ 0 ≤ st.z ∧ st.z ≤ max (fieldModulus : Int) z0.toNat ∧
    (st.z ≠ 0 → 0 ≤ st.r / st.z ∧ st.r / st.z ≤ fieldModulus ∧
      0 ≤ st.iterate.z ∧ st.iterate.z < st.iterate.r ∧ st.iterate.r = st.z)

/-! ## The validator -/

/-- R87, R88: ONCURVE, over exact integers, with modz on both sides (so p = 0 gives 1). -/
def Obligations.OncurveTestsTheEquation : Prop :=
  decode 0x08#256 = .op .oncurve ∧ ∀ s : State,
    let a := s.latch.v.v0.toNat; let b := s.latch.v.v1.toNat; let p := s.latch.v.v2.toNat
    let x := s.latch.v.v3.toNat; let y := s.latch.v.v4.toNat
    CompletesWith .oncurve s
      ⟨if p = 0 ∨ y ^ 2 % p = (x ^ 3 + a * x + b) % p then 1#256 else 0#256, 0#256, 0#256⟩

/-- R89: ONCURVEK1, with a = 0, b = 7, p = P. -/
def Obligations.Oncurvek1TestsSecp256k1 : Prop :=
  decode 0x09#256 = .op .oncurvek1 ∧ ∀ s : State,
    let x := s.latch.v.v0.toNat; let y := s.latch.v.v1.toNat
    CompletesWith .oncurvek1 s
      ⟨if y ^ 2 % fieldModulus = (x ^ 3 + 7) % fieldModulus then 1#256 else 0#256, 0#256, 0#256⟩

/-- R90: the a = 0 path gives the same result as the single formula; and the spec's inference under R91 (from R88 and
R89): ONCURVEK1(x, y) = ONCURVE(0, 7, P, x, y). -/
def Obligations.GenericAndSpecialisedTestsAgree : Prop :=
  ∀ b p x y : Word,
    onCurve 0#256 b p x y = decide (modz (uInt y * uInt y) p = modz (uInt x * uInt x * uInt x + uInt b) p) ∧
    oncurvek1Results x y = oncurveResults 0#256 7#256 Config.rom.p x y

/-! ## The converters -/

/-- R94: TOJAC passes x and y through unreduced and gives z = 1. -/
def Obligations.TojacLiftsThePoint : Prop :=
  decode 0x0A#256 = .op .tojac ∧ ∀ s : State,
    CompletesWith .tojac s ⟨s.latch.v.v0, s.latch.v.v1, 1#256⟩

/-- R95, R96: TOAFF, with zInv what the loop of R80 returns for z, y' by multiplication with zInv^3. -/
def Obligations.ToaffProjectsThePoint : Prop :=
  decode 0x0B#256 = .op .toaff ∧ ∀ s : State, ∃ zInv x' y' : Word,
    InverterRun fieldModulus s.latch.v.v2.toNat 0 1 zInv.toNat ∧
    x'.toNat = s.latch.v.v0.toNat * zInv.toNat ^ 2 % fieldModulus ∧
    y'.toNat = s.latch.v.v1.toNat * zInv.toNat ^ 3 % fieldModulus ∧
    CompletesWith .toaff s ⟨x', y', 0#256⟩

/-- The spec's inference under R97 (from R94, R95 and R81): TOAFF of TOJAC's results gives (x mod P, y mod P), which is (x, y) for x, y < P. -/
def Obligations.LiftThenProjectRoundTrip : Prop :=
  ∀ x y : Word, let j := tojacResults x y; let a := toaffResults j.r0 j.r1 j.r2
    a.r0.toNat = x.toNat % fieldModulus ∧ a.r1.toNat = y.toNat % fieldModulus ∧
    (x.toNat < fieldModulus → y.toNat < fieldModulus → a.r0 = x ∧ a.r1 = y)

/-- The spec's inference under R98 (from R95, R85, R86): z = 0 gives (0, 0), z = P gives (x mod P, y mod P), and no other 256-bit z is ≡ 0 (mod P). -/
def Obligations.ToaffOfDegenerateZ : Prop :=
  ∀ x y z : Word,
    toaffResults x y 0#256 = ⟨0#256, 0#256, 0#256⟩ ∧
    (toaffResults x y Config.rom.p).r0.toNat = x.toNat % fieldModulus ∧
    (toaffResults x y Config.rom.p).r1.toNat = y.toNat % fieldModulus ∧
    (toaffResults x y Config.rom.p).r2 = 0#256 ∧
    (z.toNat % fieldModulus = 0 → z = 0#256 ∨ z = Config.rom.p)

/-- R93's reading of a Jacobian point, a consequence of R95 and R80, for z > P through the spec's inference
under R85: for z ≢ 0 (mod P) TOAFF gives the affine point (x·z^-2, y·z^-3): its coordinates times z^2 and z^3 are x
and y modulo P. -/
def Obligations.ToaffGivesTheAffinePoint : Prop :=
  ∀ x y z : Word, z.toNat % fieldModulus ≠ 0 →
    ((toaffResults x y z).r0.toNat * z.toNat ^ 2) % fieldModulus = x.toNat % fieldModulus ∧
    ((toaffResults x y z).r1.toNat * z.toNat ^ 3) % fieldModulus = y.toNat % fieldModulus

/-! ## The point adder -/

/-- R100: JADD gives the values of the sequence, each line one exact integer expression reduced once mod P. -/
def Obligations.JaddRunsTheSequence : Prop :=
  decode 0x0C#256 = .op .jadd ∧ ∀ s : State, ∃ x3 y3 z3 : Word,
    let P : Int := fieldModulus
    let x1 : Int := s.latch.v.v0.toNat; let y1 : Int := s.latch.v.v1.toNat; let z1 : Int := s.latch.v.v2.toNat
    let x2 : Int := s.latch.v.v3.toNat; let y2 : Int := s.latch.v.v4.toNat
    let z1_2 := (z1 * z1) % P
    let h := (x2 * z1_2 - x1) % P
    let h_2 := (h * h) % P
    let i := (4 * h_2) % P
    let j := (h * i) % P
    let r := (2 * (y2 * z1_2 * z1 - y1)) % P
    let v := (x1 * i) % P
    x3.toNat = (r * r - j - 2 * v) % P ∧
    y3.toNat = (r * (v - x3.toNat) - 2 * y1 * j) % P ∧
    z3.toNat = ((z1 + h) * (z1 + h) - z1_2 - h_2) % P ∧
    CompletesWith .jadd s ⟨x3, y3, z3⟩

/-- The spec's inference under R101 (from R100): raw operands x1, y1 at or above P give the same result as x1 mod P and y1 mod P. -/
def Obligations.JaddReducesRawCoordinates : Prop :=
  ∀ x1 y1 z1 x2 y2 u1 w1 : Word, u1.toNat = x1.toNat % fieldModulus → w1.toNat = y1.toNat % fieldModulus →
    jaddResults x1 y1 z1 x2 y2 = jaddResults u1 w1 z1 x2 y2

/-- The spec's inferences under R103 (from R100): h ≡ 0 gives (r^2, -r^3, 0) with r = 2(y2·z1^3 - y1), so doubling, for
any J of which A is the affine point, gives (0, 0, 0); z1 = 0 gives z3 = 0; z3 = 0 projects to (0, 0); the negation of
J = (x, y, 1), 0 < y < P, gives (r^2, -r^3, 0) with r = -4y ≠ 0, and TOAFF of it (0, 0); the affine identity (0, 0) is
treated as coordinates: G + (0, 0) is neither G nor on the curve. -/
def Obligations.JaddOnDegenerateInputs : Prop :=
  ∀ x1 y1 z1 x2 y2 : Word, let j := jaddResults x1 y1 z1 x2 y2
    let r : Int := (2 * ((y2.toNat : Int) * z1.toNat ^ 3 - y1.toNat)) % fieldModulus
    ((((x2.toNat : Int) * z1.toNat ^ 2 - x1.toNat) % fieldModulus = 0) →
      (j.r0.toNat : Int) = r ^ 2 % fieldModulus ∧ (j.r1.toNat : Int) = (-(r ^ 3)) % fieldModulus ∧ j.r2 = 0#256 ∧
      (((y2.toNat : Int) * z1.toNat ^ 3 - y1.toNat) % fieldModulus = 0 → j = ⟨0#256, 0#256, 0#256⟩)) ∧
    (z1 = 0#256 → j.r2 = 0#256) ∧
    (j.r2 = 0#256 → toaffResults j.r0 j.r1 j.r2 = ⟨0#256, 0#256, 0#256⟩) ∧
    jaddResults x1 y1 1#256 x1 y1 = ⟨0#256, 0#256, 0#256⟩ ∧
    jaddResults 0#256 0#256 0#256 Config.rom.gx Config.rom.gy = ⟨0#256, 0#256, 0#256⟩ ∧
    (let g := jaddResults Config.rom.gx Config.rom.gy 1#256 0#256 0#256; let a := toaffResults g.r0 g.r1 g.r2
      a.r0 ≠ Config.rom.gx ∧ (oncurvek1Results a.r0 a.r1).r0 = 0#256) ∧
    (0 < y1.toNat → y1.toNat < fieldModulus → y1.toNat + y2.toNat = fieldModulus →
      let n := jaddResults x1 y1 1#256 x1 y2
      let r : Int := (-4 * (y1.toNat : Int)) % fieldModulus
      r ≠ 0 ∧ (n.r0.toNat : Int) = r ^ 2 % fieldModulus ∧ (n.r1.toNat : Int) = (-(r ^ 3)) % fieldModulus ∧
        n.r2 = 0#256 ∧ toaffResults n.r0 n.r1 n.r2 = ⟨0#256, 0#256, 0#256⟩)

/-- R104 with the textbook sum the spec took "from general knowledge" (93 G3): for z1 ≢ 0 (mod P) and A's x other than that of the affine point (X, Y) of J, TOAFF of JADD's result is the
affine sum: with lam the slope, (lam^2 - X - x2, lam (X - x3) - Y). -/
def Obligations.JaddIsTheAffineSum : Prop :=
  ∀ x1 y1 z1 x2 y2 : Word, let q := toaffResults x1 y1 z1
    let X : Int := q.r0.toNat; let Y : Int := q.r1.toNat
    let j := jaddResults x1 y1 z1 x2 y2; let a := toaffResults j.r0 j.r1 j.r2
    z1.toNat % fieldModulus ≠ 0 → ((x2.toNat : Int) - X) % fieldModulus ≠ 0 →
    ∀ lam : Int, (lam * (x2.toNat - X) - (y2.toNat - Y)) % fieldModulus = 0 →
      (a.r0.toNat : Int) = (lam ^ 2 - X - x2.toNat) % fieldModulus ∧
      (a.r1.toNat : Int) = (lam * (X - a.r0.toNat) - Y) % fieldModulus

/-- A consequence of R100 and R104 (Q + A is a curve point): if J represents a point of secp256k1 and A is one, with different x, then TOAFF of JADD's result is a point of
secp256k1. -/
def Obligations.JaddStaysOnTheCurve : Prop :=
  ∀ x1 y1 z1 x2 y2 : Word, let q := toaffResults x1 y1 z1
    let j := jaddResults x1 y1 z1 x2 y2; let a := toaffResults j.r0 j.r1 j.r2
    z1.toNat % fieldModulus ≠ 0 → ((x2.toNat : Int) - q.r0.toNat) % fieldModulus ≠ 0 →
    (oncurvek1Results q.r0 q.r1).r0 = 1#256 → (oncurvek1Results x2 y2).r0 = 1#256 →
    (oncurvek1Results a.r0 a.r1).r0 = 1#256

/-! ## Every command -/

/-- R23, R24, R26, R33: every command completes in every state, writes RES0 to RES2 and marks them, clears BUSY, sets
DONE, and changes nothing else. -/
def Obligations.EveryCommandCompletesInItsFrame : Prop :=
  ∀ (i : Instr) (s : State), ∃ t, exec i s = .next t ∧ t.res.written = true ∧
    t.status = { s.status with busy := false, done := true } ∧
    t.opr = s.opr ∧ t.cmd = s.cmd ∧ t.latch = s.latch ∧ t.host = s.host ∧ t.timing = s.timing ∧ t.resets = s.resets

/-- R27, R63: a command's results depend on nothing but the latched words of the operands it reads. -/
def Obligations.ResultsDependOnReadOperandsOnly : Prop :=
  ∀ (i : Instr) (s s' t t' : State), (∀ k ∈ operandsOf i, s.latch.v.get k = s'.latch.v.get k) →
    exec i s = .next t → exec i s' = .next t' → t.res = t'.res

/-- R26, R48: when the completion step comes and the latch holds an assigned opcode, the step is exec of that command,
and nothing is added around it; and it is the next step after the state that withFetchWord places (the model's reading
of "next instruction", log 1 and log 14). -/
def Obligations.StepRunsTheLatchedCommand : Prop :=
  (∀ (s : State) (i : Instr), coreTurn s = true → decodeOpc s.latch.op = .op i → step s = exec i s) ∧
    ∀ (s : State) (i : Instr),
      step (s.withFetchWord 256 (encode i).toNat) = exec i (s.withFetchWord 256 (encode i).toNat)

/-- R110, R112: in a legal state a completion step always answers a next state; no operand value raises anything. -/
def Obligations.CompletionNeverStops : Prop :=
  ∀ s : State, s.Inv → coreTurn s = true → safeStep s

/-! ## The CMD write -/

/-- R135, R60: a CMD write while BUSY = 1 is dropped: DROP is set and nothing else of the block changes, whatever the
word. `tick` is the host passing the line (log 2, log 3). -/
def Obligations.CommandWhileBusyIsDropped : Prop :=
  ∀ (s : State) (v : Word), HostAt s (.write 8#4 v) → s.status.busy = true →
    step s = .next { s.tick with status := { s.status with drop := true } }

/-- R111, R115, R62: an idle CMD write of a word with RSVD ≠ 0, or with OPC 0x00 or 0x0D to 0xFF, is rejected: CMD holds
the word, ERR = 1, CAUSE = 1, DONE = 0, DROP = 0, BUSY = 0, and all else is unchanged. -/
def Obligations.UnsupportedWordIsRejected : Prop :=
  ∀ (s : State) (v : Word), HostAt s (.write 8#4 v) → s.status.busy = false →
    v.toNat / 2 ^ 8 ≠ 0 ∨ v.toNat % 2 ^ 8 = 0 ∨ 0x0D ≤ v.toNat % 2 ^ 8 →
    step s = .next { s.tick with cmd := v, status := ⟨false, false, true, false, 1#4⟩ }

/-- R60, R25: an idle CMD write of a valid word whose operand registers are written (R36, R133) is issued: the latch takes
the opcode and all five operand words, BUSY = 1 and the other fields 0, CMD holds the word, OPR and RES are unchanged.
ResetDataIsNamedAndDoesNotLeak says what happens with an unwritten one. -/
def Obligations.ValidWordIsIssued : Prop :=
  ∀ (s : State) (i : Instr), HostAt s (.write 8#4 (encode i)) → s.status.busy = false →
    (∀ k ∈ operandsOf i, (s.opr.get k).written = true) →
    ∃ t, step s = .next t ∧ t.cmd = encode i ∧ decodeOpc t.latch.op = .op i ∧ t.latch.op = (encode i).setWidth 8 ∧
      (∀ k, t.latch.v.get k = (s.opr.get k).value) ∧
      t.status = ⟨true, false, false, false, 0#4⟩ ∧ t.opr = s.opr ∧ t.res = s.res ∧ t.host = s.tick.host

/-- R36, R60, R133: the issue of a command that reads an unwritten operand register is a fault that names such a register
(which of several: the model's choice, log 8), and a host read of an unwritten OPR or RES is a fault; so, R36, "a claim
can then never rest on reset contents": a step that answers a next state answers, from any state that agrees in all but
unspecified contents and gives the next command the same latency, a next state that again agrees. -/
def Obligations.ResetDataIsNamedAndDoesNotLeak : Prop :=
  (∀ (s : State) (i : Instr), HostAt s (.write 8#4 (encode i)) → s.status.busy = false →
    (∃ k ∈ operandsOf i, (s.opr.get k).written = false) →
    ∃ k ∈ operandsOf i, (s.opr.get k).written = false ∧ step s = .fault (.unwrittenOperand i k)) ∧
  (∀ (s : State) (idx : BitVec 4), HostAt s (.read idx) →
    (∀ k : Fin 5, idx.toNat = k.val → (s.opr.get k).written = false → step s = .fault (.unwrittenRead idx)) ∧
    (∀ k : Fin 3, idx.toNat = 5 + k.val → (s.res.get k).written = false → step s = .fault (.unwrittenRead idx))) ∧
  ∀ s s' t : State, s.agreeButResetData s' → (∀ op, s'.nextDelay op = s.nextDelay op) →
    step s = .next t → ∃ t', step s' = .next t' ∧ t.agreeButResetData t'

/-! ## Register accesses -/

/-- R41: RegRead returns OPR, RES, CMD, STATUS or 0 by the index; an unwritten OPR or RES faults (R36). -/
def Obligations.RegReadByIndex : Prop :=
  ∀ s : State,
    (∀ (k : Fin 5) (idx : BitVec 4), idx.toNat = k.val → regRead idx s =
      if (s.opr.get k).written then .ok (s.opr.get k).value else .error (.unwrittenRead idx)) ∧
    (∀ (k : Fin 3) (idx : BitVec 4), idx.toNat = 5 + k.val → regRead idx s =
      if (s.res.get k).written then .ok (s.res.get k).value else .error (.unwrittenRead idx)) ∧
    regRead 8#4 s = .ok s.cmd ∧ regRead 9#4 s = .ok s.status.word ∧
    ∀ idx : BitVec 4, 10 ≤ idx.toNat → regRead idx s = .ok 0#256

/-- R41, R47, R137: a host read that gets a word, busy or not, changes no state of the block, and hands the host that word
(the model's host field readData, log 12); where the register is unwritten the step faults (R36). -/
def Obligations.HostReadHasNoSideEffect : Prop :=
  ∀ (s : State) (idx : BitVec 4), HostAt s (.read idx) →
    (∀ w, regRead idx s = .ok w →
      ∃ t, step s = .next t ∧ SameBlock s t ∧ t.host.readData = some w ∧ t.host.line = s.host.line + 1) ∧
    (∀ f, regRead idx s = .error f → step s = .fault f)

/-- R42, R138: a host write to OPRk, also while BUSY = 1, sets that register and marks it written (R36) and leaves the
other operand registers, RES, CMD, STATUS and the latch. -/
def Obligations.HostWritesOperandRegister : Prop :=
  ∀ (s : State) (idx : BitVec 4) (k : Fin 5) (v : Word), HostAt s (.write idx v) → idx.toNat = k.val →
    ∃ t, step s = .next t ∧ t.opr.get k = ⟨v, true⟩ ∧ (∀ j, j ≠ k → t.opr.get j = s.opr.get j) ∧
      t.res = s.res ∧ t.cmd = s.cmd ∧ t.status = s.status ∧ t.latch = s.latch ∧ t.host = s.tick.host

/-- R43: a host write to a read-only index (5, 6, 7, 9) or a reserved index (10 to 15) has no effect on the block. -/
def Obligations.ReadOnlyWritesAreIgnored : Prop :=
  ∀ (s : State) (idx : BitVec 4) (v : Word), HostAt s (.write idx v) → 5 ≤ idx.toNat → idx ≠ 8#4 →
    step s = .next s.tick

/-! ## STATUS, reset and invariants -/

/-- R29: the layout of STATUS as the host reads it, the unlisted bits 0. -/
def Obligations.StatusWordLayout : Prop :=
  ∀ st : Status, st.word.getLsbD 0 = st.busy ∧ st.word.getLsbD 1 = st.done ∧ st.word.getLsbD 2 = st.err ∧
    st.word.getLsbD 3 = st.drop ∧ st.word.extractLsb' 8 4 = st.cause ∧
    st.word.extractLsb' 4 4 = 0#4 ∧ st.word.extractLsb' 12 244 = 0#244

/-- R29, R33: in a legal state STATUS reads as one of six words. -/
def Obligations.StatusReadsAsOneOfSixWords : Prop :=
  ∀ s : State, s.Inv → s.status.word ∈ [0x0#256, 0x1#256, 0x2#256, 0x9#256, 0xA#256, 0x104#256]

/-- R130, R34: the platform's reset at any moment, a command in flight or not: STATUS = 0, CMD = 0, all eight registers
unwritten, and no completion step follows. -/
def Obligations.ResetAbandonsTheCommand : Prop :=
  ∀ s : State, HostAt s .platformReset → ∃ t, step s = .next t ∧ t.status.word = 0#256 ∧ t.cmd = 0#256 ∧
    (∀ k, (t.opr.get k).written = false) ∧ (∀ k, (t.res.get k).written = false) ∧
    t.status.busy = false ∧ coreTurn t = false

/-- R34 (and R132): right after reset STATUS and CMD read 0, every OPR and RES register is unwritten, and no step of the core
is enabled. -/
def Obligations.ResetState : Prop :=
  regRead 9#4 State.reset = .ok 0#256 ∧ regRead 8#4 State.reset = .ok 0#256 ∧
    (∀ k, (State.reset.opr.get k).written = false) ∧ (∀ k, (State.reset.res.get k).written = false) ∧
    State.reset.quiescent = true ∧ coreTurn State.reset = false

/-- R34, R36: the state after reset meets the invariant, and it vouches for no result. -/
def Obligations.ResetMeetsTheInvariant : Prop := State.reset.Inv ∧ State.reset.ResultsVouched

/-- R26, R29, R33, R36, R110: every step keeps the invariant of the control state. -/
def Obligations.StepKeepsTheInvariant : Prop :=
  ∀ s t : State, s.Inv → step s = .next t → t.Inv

/-- R29: "When DONE = 1, RES0..RES2 hold the results of the last accepted command": every step keeps it. -/
def Obligations.DoneVouchesForTheResults : Prop :=
  ∀ s t : State, s.Inv → s.ResultsVouched → step s = .next t → t.ResultsVouched

/-- R24, R25, R137, R138: while a command is in flight and its completion does not come, a step that leaves it in flight
changes neither RES nor CMD nor the latch; whatever step is taken, RES changes only by a completion or a reset. -/
def Obligations.HostCannotTouchTheCommandInFlight : Prop :=
  ∀ s t : State, coreTurn s = false → step s = .next t →
    (s.status.busy = true → t.status.busy = true → t.res = s.res ∧ t.cmd = s.cmd ∧ t.latch = s.latch) ∧
    (s.host.script[s.host.line]? ≠ some .platformReset → t.res = s.res)

/-- R33: each step leaves in STATUS what the table of R33 says of its event: the completion step; a reset; a CMD write that
is dropped, rejected or accepted; and every other step leaves STATUS as it was. -/
def Obligations.StatusIsWrittenByItsEvents : Prop :=
  ∀ s t : State, step s = .next t →
    (coreTurn s = true → t.status = { s.status with busy := false, done := true }) ∧
    (coreTurn s = false →
      (s.host.script[s.host.line]? = some .platformReset → t.status = ⟨false, false, false, false, 0#4⟩) ∧
      (∀ v, s.host.script[s.host.line]? = some (.write 8#4 v) →
        t.status = if s.status.busy then { s.status with drop := true }
          else if decode v = .unsupported then ⟨false, false, true, false, 1#4⟩
          else ⟨true, false, false, false, 0#4⟩) ∧
      (s.host.script[s.host.line]? ≠ some .platformReset → (∀ v, s.host.script[s.host.line]? ≠ some (.write 8#4 v)) →
        t.status = s.status))

/-- R23: no command writes an OPR register: OPR changes only by a host write to one of its indices or by a reset. -/
def Obligations.OprChangesOnlyByHostWrite : Prop :=
  ∀ s t : State, step s = .next t → t.opr ≠ s.opr →
    coreTurn s = false ∧ (s.host.script[s.host.line]? = some .platformReset ∨
      ∃ (k : Fin 5) (idx : BitVec 4) (v : Word), idx.toNat = k.val ∧
        s.host.script[s.host.line]? = some (.write idx v) ∧ t.opr.get k = ⟨v, true⟩)

/-- R28: CMD changes only by a host write to index 8 while BUSY = 0, which it then holds, or by a reset. -/
def Obligations.CmdHoldsTheLastProcessedWrite : Prop :=
  ∀ s t : State, step s = .next t → t.cmd ≠ s.cmd →
    coreTurn s = false ∧ (s.host.script[s.host.line]? = some .platformReset ∧ t.cmd = 0#256 ∨
      s.status.busy = false ∧ s.host.script[s.host.line]? = some (.write 8#4 t.cmd))

/-- R143: in a quiescent state with no host line left nothing changes (the model's stuttering step, log 9). -/
def Obligations.QuiescentBlockStaysAsItIs : Prop :=
  ∀ s : State, s.quiescent = true → hostFinished s = true → step s = .next s

/-! ## The protocol -/

/-- R26, R136, R138: a command in flight completes after at most `wait` further host lines (the model's form of a finite
latency, log 3), with the results of the words latched at its issue, whatever registers the host writes, and
whatever written registers it reads and however it branches meanwhile. A reset abandons the command (R130), a read of an
unwritten register faults (R36), and a branch needs an `RD STATUS` before it (log 11). -/
def Obligations.CommandInFlightCompletes : Prop :=
  ∀ (s : State) (i : Instr), s.status.busy = true → decodeOpc s.latch.op = .op i →
    HostLine.platformReset ∉ s.host.script →
    (∀ idx, HostLine.read idx ∈ s.host.script → regWritten idx s = true) →
    (s.host.statusSeen ≠ none ∨ ∀ f target, HostLine.bnz f target ∉ s.host.script) →
    ∃ t, Host.Core.run core (s.timing.wait + 1) s = .next t ∧ t.status.busy = false ∧ t.status.done = true ∧
      t.res.results = execResults i s.latch.v ∧ t.latch = s.latch ∧ t.cmd = s.cmd

/-- R65: BNZ continues at the label if the field of the last RD STATUS is nonzero, else at the next line, and changes
nothing of the block (the host's own fields: log 2, log 12). -/
def Obligations.BranchFollowsTheLastStatusRead : Prop :=
  ∀ (s : State) (st : Status) (f : StatusField) (target : Nat), HostAt s (.bnz f target) →
    s.host.statusSeen = some st.word →
    ∃ t, step s = .next t ∧ SameBlock s t ∧
      t.host.line = if statusField f st then target else s.host.line + 1

/-- R66, R134, R136 (the latency is the model's free value, log 3): from every idle state the script `CALL MNEM v0, ..., vk` runs to its end, whatever the latency: RES0
to RES2 hold the command's results on v0 to vk, STATUS = DONE, and the last word read is RES2. -/
def Obligations.CallReturnsTheResults : Prop :=
  ∀ (i : Instr) (vs : List Word) (lines : List HostLine) (s : State),
    assemble [.call i vs] = some lines → s.status.busy = false → s.host = ⟨lines, 0, none, none⟩ →
    ∃ (n : Nat) (t : State) (v : OperandWords), Host.Core.run core n s = .next t ∧ hostFinished t = true ∧
      (∀ kv ∈ (operandsOf i).zip vs, v.get kv.1 = kv.2) ∧ t.res.results = execResults i v ∧
      t.status = ⟨false, true, false, false, 0#4⟩ ∧ t.host.readData = some t.res.r2.value
end

