-- ==== Sys2Proof/Laws/Arith.lean ====
section
/-! SUPPORT. Words as integers, and the reductions: ranges, and that a reduced integer fits in a word (R10, R11, R76). -/

namespace Sys2Proof.Machine

theorem uInt_eq (w : Word) : uInt w = (w.toNat : Int) := rfl

theorem uInt_nonneg (w : Word) : 0 ≤ uInt w := Int.natCast_nonneg _

theorem uInt_lt (w : Word) : uInt w < 2 ^ 256 := by
  have h := w.isLt
  rw [uInt_eq]; exact_mod_cast h

/-- P as a numeral, 2^256 - 2^32 - 977 (R5). -/
theorem romP_eq : romP = 2 ^ 256 - 2 ^ 32 - 977 := by decide

theorem romP_pos : 0 < romP := by decide

theorem modP_nonneg (v : Int) : 0 ≤ modP v := Int.emod_nonneg v (by decide)

theorem modP_lt (v : Int) : modP v < romP := Int.emod_lt_of_pos v romP_pos

/-- A reduced integer is kept by the word that holds it: no result is truncated (R76). -/
theorem uInt_toWord {v : Int} (h0 : 0 ≤ v) (h1 : v < 2 ^ 256) : uInt (toWord v) = v := by
  rw [uInt_eq, toWord, BitVec.toNat_ofInt, Int.toNat_of_nonneg (Int.emod_nonneg v (by decide))]
  exact Int.emod_eq_of_lt h0 (by exact_mod_cast h1)

theorem toNat_toWord {v : Int} (h0 : 0 ≤ v) (h1 : v < 2 ^ 256) : ((toWord v).toNat : Int) = v := uInt_toWord h0 h1

@[simp] theorem uInt_toWord_modP (v : Int) : uInt (toWord (modP v)) = modP v :=
  uInt_toWord (modP_nonneg v) (lt_trans (modP_lt v) (by rw [romP_eq]; norm_num))

theorem modz_nonneg (v : Int) (m : Word) : 0 ≤ modz v m := by
  unfold modz
  split
  · exact le_refl 0
  · exact Int.emod_nonneg v ‹_›

/-- `modz` on the modulus as a natural number. -/
theorem modz_eq (v : Int) (m : Word) : modz v m = if m.toNat = 0 then 0 else v % m.toNat := by
  unfold modz
  rw [uInt_eq]
  simp

/-- With the ROM's P as operand modulus `modz` is the reduction mod P (R76). -/
theorem modz_romP (v : Int) : modz v Config.rom.p = modP v := by
  unfold modz modP
  rw [if_neg (by decide)]
  rfl

/-- `modz` by a nonzero modulus is below it, and it is always a word's value (R76). -/
theorem modz_lt {v : Int} {m : Word} (h : uInt m ≠ 0) : modz v m < uInt m := by
  rw [modz, if_neg h]
  exact Int.emod_lt_of_pos v (lt_of_le_of_ne (uInt_nonneg m) (Ne.symm h))

@[simp] theorem uInt_toWord_modz (v : Int) (m : Word) : uInt (toWord (modz v m)) = modz v m := by
  refine uInt_toWord (modz_nonneg v m) ?_
  by_cases h : uInt m = 0
  · simp [modz, h]
  · exact lt_trans (modz_lt h) (uInt_lt m)

/-- A boolean result as words (R88). -/
theorem Results.ofBool_eq (c : Bool) : Results.ofBool c = ⟨if c then 1#256 else 0#256, 0#256, 0#256⟩ := by
  cases c <;> decide

/-- Two words with the same integer are equal. -/
theorem word_ext {a b : Word} (h : uInt a = uInt b) : a = b := by
  rw [uInt_eq, uInt_eq] at h
  exact BitVec.eq_of_toNat_eq (by exact_mod_cast h)

end Sys2Proof.Machine
end

