-- ==== Sys2Proof/Laws/Decode.lean ====
section
/-! SUPPORT. What a decoded word is: its two fields make it up, and only RSVD = 0 reaches the opcode map (R57, R61). -/

namespace Sys2Proof

/-- A command word is RSVD above OPC (R57). -/
theorem fields_append (v : Word) : (rsvdField v ++ opcField v : BitVec (248 + 8)) = v := by
  apply BitVec.eq_of_getLsbD_eq
  intro i hi
  simp only [rsvdField, opcField, BitVec.getLsbD_append, BitVec.getLsbD_extractLsb', Nat.zero_add]
  by_cases h : i < 8
  · simp [h]
  · have h2 : i - 8 < 248 := by omega
    have h3 : 8 + (i - 8) = i := by omega
    simp [h, h2, h3]

/-- The decoder answers a command only for a word with RSVD = 0, and then by its opcode (R61). -/
theorem decode_op_iff_fields (v : Word) (i : Instr) :
    decode v = .op i ↔ rsvdField v = 0#248 ∧ decodeOpc (opcField v) = .op i := by
  unfold decode
  split <;> simp_all

/-- A decoded word is its opcode with zeros above. -/
theorem eq_append_of_decode {v : Word} {i : Instr} (h : decode v = .op i) : v = 0#248 ++ opcField v := by
  have hz := ((decode_op_iff_fields v i).1 h).1
  have := fields_append v
  rw [hz] at this
  exact this.symm

@[simp] theorem opcField_append (r : BitVec 248) (o : BitVec 8) : opcField (r ++ o) = o := by
  apply BitVec.eq_of_getLsbD_eq
  intro i hi
  simp only [opcField, BitVec.getLsbD_extractLsb', BitVec.getLsbD_append, Nat.zero_add]
  simp [hi]

@[simp] theorem rsvdField_append (r : BitVec 248) (o : BitVec 8) : rsvdField (r ++ o) = r := by
  apply BitVec.eq_of_getLsbD_eq
  intro i hi
  simp only [rsvdField, BitVec.getLsbD_extractLsb', BitVec.getLsbD_append]
  simp [hi]

/-- A word with zeros above its opcode decodes by the opcode map. -/
theorem decode_append_zero (o : BitVec 8) : decode (0#248 ++ o) = decodeOpc o := by
  simp [decode]

end Sys2Proof
end

