-- ==== Sys2Proof/Laws/State.lean ====
section
/-! SUPPORT. One lemma per field per named update of the state: what each update writes and what it leaves. -/

namespace Sys2Proof.Machine

@[simp] theorem State.complete_opr (s : State) (r : Results) :
    (s.complete r).opr = s.opr := rfl

@[simp] theorem State.complete_res (s : State) (r : Results) :
    (s.complete r).res = ⟨⟨r.r0, true⟩, ⟨r.r1, true⟩, ⟨r.r2, true⟩⟩ := rfl

@[simp] theorem State.complete_cmd (s : State) (r : Results) :
    (s.complete r).cmd = s.cmd := rfl

@[simp] theorem State.complete_status (s : State) (r : Results) :
    (s.complete r).status = s.status.completed := rfl

@[simp] theorem State.complete_latch (s : State) (r : Results) :
    (s.complete r).latch = s.latch := rfl

@[simp] theorem State.complete_host (s : State) (r : Results) :
    (s.complete r).host = s.host := rfl

@[simp] theorem State.complete_timing (s : State) (r : Results) :
    (s.complete r).timing = s.timing := rfl

@[simp] theorem State.complete_resets (s : State) (r : Results) :
    (s.complete r).resets = s.resets := rfl

@[simp] theorem State.accept_opr (s : State) (v : Word) :
    (s.accept v).opr = s.opr := rfl

@[simp] theorem State.accept_res (s : State) (v : Word) :
    (s.accept v).res = s.res := rfl

@[simp] theorem State.accept_cmd (s : State) (v : Word) :
    (s.accept v).cmd = v := rfl

@[simp] theorem State.accept_status (s : State) (v : Word) :
    (s.accept v).status = s.status.accepted := rfl

@[simp] theorem State.accept_latch (s : State) (v : Word) :
    (s.accept v).latch = ⟨opcField v, s.opr.words⟩ := rfl

@[simp] theorem State.accept_host (s : State) (v : Word) :
    (s.accept v).host = s.host := rfl

@[simp] theorem State.accept_timing (s : State) (v : Word) :
    (s.accept v).timing = ⟨s.nextDelay (opcField v), s.timing.delays.tail, s.timing.issued + 1⟩ := rfl

@[simp] theorem State.accept_resets (s : State) (v : Word) :
    (s.accept v).resets = s.resets := rfl

@[simp] theorem State.raiseUnsupported_opr (s : State) (v : Word) :
    (s.raiseUnsupported v).opr = s.opr := rfl

@[simp] theorem State.raiseUnsupported_res (s : State) (v : Word) :
    (s.raiseUnsupported v).res = s.res := rfl

@[simp] theorem State.raiseUnsupported_cmd (s : State) (v : Word) :
    (s.raiseUnsupported v).cmd = v := rfl

@[simp] theorem State.raiseUnsupported_status (s : State) (v : Word) :
    (s.raiseUnsupported v).status = s.status.rejected := rfl

@[simp] theorem State.raiseUnsupported_latch (s : State) (v : Word) :
    (s.raiseUnsupported v).latch = s.latch := rfl

@[simp] theorem State.raiseUnsupported_host (s : State) (v : Word) :
    (s.raiseUnsupported v).host = s.host := rfl

@[simp] theorem State.raiseUnsupported_timing (s : State) (v : Word) :
    (s.raiseUnsupported v).timing = s.timing := rfl

@[simp] theorem State.raiseUnsupported_resets (s : State) (v : Word) :
    (s.raiseUnsupported v).resets = s.resets := rfl

@[simp] theorem State.dropWrite_opr (s : State) :
    s.dropWrite.opr = s.opr := rfl

@[simp] theorem State.dropWrite_res (s : State) :
    s.dropWrite.res = s.res := rfl

@[simp] theorem State.dropWrite_cmd (s : State) :
    s.dropWrite.cmd = s.cmd := rfl

@[simp] theorem State.dropWrite_status (s : State) :
    s.dropWrite.status = s.status.dropped := rfl

@[simp] theorem State.dropWrite_latch (s : State) :
    s.dropWrite.latch = s.latch := rfl

@[simp] theorem State.dropWrite_host (s : State) :
    s.dropWrite.host = s.host := rfl

@[simp] theorem State.dropWrite_timing (s : State) :
    s.dropWrite.timing = s.timing := rfl

@[simp] theorem State.dropWrite_resets (s : State) :
    s.dropWrite.resets = s.resets := rfl

@[simp] theorem State.writeOpr_opr (s : State) (k : Fin 5) (v : Word) :
    (s.writeOpr k v).opr = s.opr.write k v := rfl

@[simp] theorem State.writeOpr_res (s : State) (k : Fin 5) (v : Word) :
    (s.writeOpr k v).res = s.res := rfl

@[simp] theorem State.writeOpr_cmd (s : State) (k : Fin 5) (v : Word) :
    (s.writeOpr k v).cmd = s.cmd := rfl

@[simp] theorem State.writeOpr_status (s : State) (k : Fin 5) (v : Word) :
    (s.writeOpr k v).status = s.status := rfl

@[simp] theorem State.writeOpr_latch (s : State) (k : Fin 5) (v : Word) :
    (s.writeOpr k v).latch = s.latch := rfl

@[simp] theorem State.writeOpr_host (s : State) (k : Fin 5) (v : Word) :
    (s.writeOpr k v).host = s.host := rfl

@[simp] theorem State.writeOpr_timing (s : State) (k : Fin 5) (v : Word) :
    (s.writeOpr k v).timing = s.timing := rfl

@[simp] theorem State.writeOpr_resets (s : State) (k : Fin 5) (v : Word) :
    (s.writeOpr k v).resets = s.resets := rfl

@[simp] theorem State.platformReset_opr (s : State) :
    s.platformReset.opr = (State.afterReset (s.resets + 1)).opr := rfl

@[simp] theorem State.platformReset_res (s : State) :
    s.platformReset.res = (State.afterReset (s.resets + 1)).res := rfl

@[simp] theorem State.platformReset_cmd (s : State) :
    s.platformReset.cmd = 0#256 := rfl

@[simp] theorem State.platformReset_status (s : State) :
    s.platformReset.status = Status.atReset := rfl

@[simp] theorem State.platformReset_latch (s : State) :
    s.platformReset.latch = Latch.atReset (s.resets + 1) := rfl

@[simp] theorem State.platformReset_host (s : State) :
    s.platformReset.host = s.host := rfl

@[simp] theorem State.platformReset_timing (s : State) :
    s.platformReset.timing = { s.timing with wait := 0 } := rfl

@[simp] theorem State.platformReset_resets (s : State) :
    s.platformReset.resets = s.resets + 1 := rfl

@[simp] theorem State.tick_opr (s : State) :
    s.tick.opr = s.opr := rfl

@[simp] theorem State.tick_res (s : State) :
    s.tick.res = s.res := rfl

@[simp] theorem State.tick_cmd (s : State) :
    s.tick.cmd = s.cmd := rfl

@[simp] theorem State.tick_status (s : State) :
    s.tick.status = s.status := rfl

@[simp] theorem State.tick_latch (s : State) :
    s.tick.latch = s.latch := rfl

@[simp] theorem State.tick_host (s : State) :
    s.tick.host = { s.host with line := s.host.line + 1 } := rfl

@[simp] theorem State.tick_timing (s : State) :
    s.tick.timing = { s.timing with wait := s.timing.wait - 1 } := rfl

@[simp] theorem State.tick_resets (s : State) :
    s.tick.resets = s.resets := rfl

@[simp] theorem State.received_opr (s : State) (idx : BitVec 4) (w : Word) :
    (s.received idx w).opr = s.opr := rfl

@[simp] theorem State.received_res (s : State) (idx : BitVec 4) (w : Word) :
    (s.received idx w).res = s.res := rfl

@[simp] theorem State.received_cmd (s : State) (idx : BitVec 4) (w : Word) :
    (s.received idx w).cmd = s.cmd := rfl

@[simp] theorem State.received_status (s : State) (idx : BitVec 4) (w : Word) :
    (s.received idx w).status = s.status := rfl

@[simp] theorem State.received_latch (s : State) (idx : BitVec 4) (w : Word) :
    (s.received idx w).latch = s.latch := rfl

@[simp] theorem State.received_host (s : State) (idx : BitVec 4) (w : Word) :
    (s.received idx w).host = { s.host with
      readData := some w
      statusSeen := if regName idx = .status then some w else s.host.statusSeen } := rfl

@[simp] theorem State.received_timing (s : State) (idx : BitVec 4) (w : Word) :
    (s.received idx w).timing = s.timing := rfl

@[simp] theorem State.received_resets (s : State) (idx : BitVec 4) (w : Word) :
    (s.received idx w).resets = s.resets := rfl

@[simp] theorem State.jump_opr (s : State) (target : Nat) :
    (s.jump target).opr = s.opr := rfl

@[simp] theorem State.jump_res (s : State) (target : Nat) :
    (s.jump target).res = s.res := rfl

@[simp] theorem State.jump_cmd (s : State) (target : Nat) :
    (s.jump target).cmd = s.cmd := rfl

@[simp] theorem State.jump_status (s : State) (target : Nat) :
    (s.jump target).status = s.status := rfl

@[simp] theorem State.jump_latch (s : State) (target : Nat) :
    (s.jump target).latch = s.latch := rfl

@[simp] theorem State.jump_host (s : State) (target : Nat) :
    (s.jump target).host = { s.host with line := target } := rfl

@[simp] theorem State.jump_timing (s : State) (target : Nat) :
    (s.jump target).timing = s.timing := rfl

@[simp] theorem State.jump_resets (s : State) (target : Nat) :
    (s.jump target).resets = s.resets := rfl

@[simp] theorem State.afterReset_status (n : Nat) : (State.afterReset n).status = Status.atReset := rfl

@[simp] theorem State.afterReset_cmd (n : Nat) : (State.afterReset n).cmd = 0#256 := rfl

/-- A reset marks the five operand registers unwritten (R36). -/
@[simp] theorem State.afterReset_opr_written (n : Nat) (k : Fin 5) : ((State.afterReset n).opr.get k).written = false := by
  match k with
  | 0 | 1 | 2 | 3 | 4 => rfl

/-- A reset marks the three result registers unwritten (R36). -/
@[simp] theorem State.afterReset_res_written (n : Nat) (k : Fin 3) : ((State.afterReset n).res.get k).written = false := by
  match k with
  | 0 | 1 | 2 => rfl

@[simp] theorem Status.accepted_busy (st : Status) : st.accepted.busy = true := rfl

@[simp] theorem Status.accepted_done (st : Status) : st.accepted.done = false := rfl

@[simp] theorem Status.accepted_err (st : Status) : st.accepted.err = false := rfl

@[simp] theorem Status.accepted_drop (st : Status) : st.accepted.drop = false := rfl

@[simp] theorem Status.accepted_cause (st : Status) : st.accepted.cause = 0#4 := rfl

@[simp] theorem Status.rejected_busy (st : Status) : st.rejected.busy = false := rfl

@[simp] theorem Status.rejected_done (st : Status) : st.rejected.done = false := rfl

@[simp] theorem Status.rejected_err (st : Status) : st.rejected.err = true := rfl

@[simp] theorem Status.rejected_drop (st : Status) : st.rejected.drop = false := rfl

@[simp] theorem Status.rejected_cause (st : Status) : st.rejected.cause = 1#4 := rfl

@[simp] theorem Status.dropped_busy (st : Status) : st.dropped.busy = st.busy := rfl

@[simp] theorem Status.dropped_done (st : Status) : st.dropped.done = st.done := rfl

@[simp] theorem Status.dropped_err (st : Status) : st.dropped.err = st.err := rfl

@[simp] theorem Status.dropped_drop (st : Status) : st.dropped.drop = true := rfl

@[simp] theorem Status.dropped_cause (st : Status) : st.dropped.cause = st.cause := rfl

@[simp] theorem Status.completed_busy (st : Status) : st.completed.busy = false := rfl

@[simp] theorem Status.completed_done (st : Status) : st.completed.done = true := rfl

@[simp] theorem Status.completed_err (st : Status) : st.completed.err = st.err := rfl

@[simp] theorem Status.completed_drop (st : Status) : st.completed.drop = st.drop := rfl

@[simp] theorem Status.completed_cause (st : Status) : st.completed.cause = st.cause := rfl

end Sys2Proof.Machine
end

