-- ==== Sys2Proof/Laws/Ops.lean ====
section
/-! SUPPORT. Once for each shared operation, everything it can do; the proofs cite these instead of unfolding it. -/

namespace Sys2Proof.Machine

/-! ### The register file -/

@[simp] theorem OprFile.get_write_self (f : OprFile) (k : Fin 5) (v : Word) : (f.write k v).get k = ⟨v, true⟩ := by
  match k with
  | 0 | 1 | 2 | 3 | 4 => rfl

theorem OprFile.get_write_other (f : OprFile) {j k : Fin 5} (v : Word) (h : j ≠ k) :
    (f.write k v).get j = f.get j := by
  match k, j with
  | 0, 1 | 0, 2 | 0, 3 | 0, 4 | 1, 0 | 1, 2 | 1, 3 | 1, 4 | 2, 0 | 2, 1 | 2, 3 | 2, 4 | 3, 0 | 3, 1 | 3, 2 | 3, 4
  | 4, 0 | 4, 1 | 4, 2 | 4, 3 => rfl
  | 0, 0 | 1, 1 | 2, 2 | 3, 3 | 4, 4 => exact absurd rfl h

@[simp] theorem OprFile.get_words (f : OprFile) (k : Fin 5) : f.words.get k = (f.get k).value := by
  match k with
  | 0 | 1 | 2 | 3 | 4 => rfl

/-- A host write never clears a mark (R36). -/
theorem OprFile.written_write (f : OprFile) (j k : Fin 5) (v : Word) (h : (f.get j).written = true) :
    ((f.write k v).get j).written = true := by
  by_cases e : j = k
  · subst e; simp
  · rw [OprFile.get_write_other f v e]; exact h

theorem firstUnwritten_eq_none {i : Instr} {f : OprFile} :
    firstUnwritten i f = none ↔ ∀ k ∈ operandsOf i, (f.get k).written = true := by
  simp [firstUnwritten]

theorem firstUnwritten_eq_some {i : Instr} {f : OprFile} {k : Fin 5} (h : firstUnwritten i f = some k) :
    k ∈ operandsOf i ∧ (f.get k).written = false := by
  have h1 := List.mem_of_find?_eq_some h
  have h2 := List.find?_some h
  exact ⟨h1, by simpa using h2⟩

/-- A host write keeps the operands of a command written (R36). -/
theorem firstUnwritten_write {i : Instr} {f : OprFile} (k : Fin 5) (v : Word) (h : firstUnwritten i f = none) :
    firstUnwritten i (f.write k v) = none :=
  firstUnwritten_eq_none.2 fun j hj => OprFile.written_write f j k v (firstUnwritten_eq_none.1 h j hj)

/-! ### The completion step -/

/-- Every command completes in every state: `exec` is the completion step with EXEC's results (R26). -/
theorem exec_eq (i : Instr) (s : State) : exec i s = .next (s.complete (execResults i s.latch.v)) := by
  cases i <;> rfl

/-! ### The CMD write -/

/-- What a CMD write does (R60, R114): drop, rejection, fault or issue. -/
theorem commandWrite_cases (v : Word) (s : State) :
    (s.status.busy = true ∧ commandWrite v s = .next s.dropWrite) ∨
    (s.status.busy = false ∧ decode v = .unsupported ∧ commandWrite v s = .next (s.raiseUnsupported v)) ∨
    (s.status.busy = false ∧ ∃ i k, decode v = .op i ∧ firstUnwritten i s.opr = some k ∧
      commandWrite v s = .fault (.unwrittenOperand i k)) ∨
    (s.status.busy = false ∧ ∃ i, decode v = .op i ∧ firstUnwritten i s.opr = none ∧
      commandWrite v s = .next (s.accept v)) := by
  unfold commandWrite
  cases hb : s.status.busy
  · cases hd : decode v with
    | unsupported => simp
    | op i => cases hf : firstUnwritten i s.opr <;> simp [issue, hf]
  · simp

/-! ### Register accesses -/

/-- What a host read does (R36, R41): the word, or the fault of an unwritten register. -/
theorem regRead_cases (idx : BitVec 4) (s : State) :
    (regWritten idx s = true ∧ regRead idx s = .ok (regWord idx s)) ∨
    (regWritten idx s = false ∧ regRead idx s = .error (.unwrittenRead idx)) := by
  unfold regRead
  cases regWritten idx s <;> simp

/-- What a host write does (R42, R43), by what its index names. -/
theorem regWrite_cases (idx : BitVec 4) (v : Word) (s : State) :
    (∃ k, regName idx = .opr k ∧ regWrite idx v s = .next (s.writeOpr k v)) ∨
    (regName idx = .cmd ∧ regWrite idx v s = commandWrite v s) ∨
    ((∀ k, regName idx ≠ .opr k) ∧ regName idx ≠ .cmd ∧ regWrite idx v s = .next s) := by
  unfold regWrite
  cases regName idx <;> simp

/-- Everything a host write can do when it answers a next state (R42, R43, R60). -/
theorem regWrite_next {idx : BitVec 4} {v : Word} {s t : State} (h : regWrite idx v s = .next t) :
    (∃ k, regName idx = .opr k ∧ t = s.writeOpr k v) ∨
    (regName idx = .cmd ∧ s.status.busy = true ∧ t = s.dropWrite) ∨
    (regName idx = .cmd ∧ s.status.busy = false ∧ decode v = .unsupported ∧ t = s.raiseUnsupported v) ∨
    (regName idx = .cmd ∧ s.status.busy = false ∧
      ∃ i, decode v = .op i ∧ firstUnwritten i s.opr = none ∧ t = s.accept v) ∨
    ((∀ k, regName idx ≠ .opr k) ∧ regName idx ≠ .cmd ∧ t = s) := by
  rcases regWrite_cases idx v s with ⟨k, hn, e⟩ | ⟨hn, e⟩ | ⟨h1, h2, e⟩ <;> rw [e] at h
  · cases h; exact .inl ⟨k, hn, rfl⟩
  · rcases commandWrite_cases v s with ⟨hb, e⟩ | ⟨hb, hd, e⟩ | ⟨_, i, k, _, _, e⟩ | ⟨hb, i, hd, hf, e⟩ <;>
      rw [e] at h <;> cases h
    · exact .inr (.inl ⟨hn, hb, rfl⟩)
    · exact .inr (.inr (.inl ⟨hn, hb, hd, rfl⟩))
    · exact .inr (.inr (.inr (.inl ⟨hn, hb, i, hd, hf, rfl⟩)))
  · cases h; exact .inr (.inr (.inr (.inr ⟨h1, h2, rfl⟩)))

/-- A host write stops only at the issue of a command that reads an unwritten operand register (R36, R60). -/
theorem regWrite_stops {idx : BitVec 4} {v : Word} {s : State} (h : ∀ t, regWrite idx v s ≠ .next t) :
    regName idx = .cmd ∧ s.status.busy = false ∧ ∃ i k, decode v = .op i ∧ firstUnwritten i s.opr = some k ∧
      regWrite idx v s = .fault (.unwrittenOperand i k) := by
  rcases regWrite_cases idx v s with ⟨k, _, e⟩ | ⟨hn, e⟩ | ⟨_, _, e⟩
  · exact absurd e (h _)
  · rcases commandWrite_cases v s with ⟨_, e'⟩ | ⟨_, _, e'⟩ | ⟨hb, i, k, hd, hf, e'⟩ | ⟨_, i, _, _, e'⟩
    · exact absurd (e.trans e') (h _)
    · exact absurd (e.trans e') (h _)
    · exact ⟨hn, hb, i, k, hd, hf, e.trans e'⟩
    · exact absurd (e.trans e') (h _)
  · exact absurd e (h _)

/-- Which indices name which registers (R40). -/
theorem regName_opr {idx : BitVec 4} {k : Fin 5} : regName idx = .opr k ↔ idx.toNat = k.val := by
  revert idx k; decide

theorem regName_cmd {idx : BitVec 4} : regName idx = .cmd ↔ idx = 8#4 := by
  revert idx; decide

/-! ### A step -/

/-- A host line stops only at a BNZ before any `RD STATUS` (log 11), at a read of an unwritten register (R36, R41), or at the
issue of a command with an unwritten operand (R36, R60). -/
theorem hostAct_stops {l : HostLine} {s : State} (h : ∀ t, hostAct l s ≠ .next t) :
    (∃ f target, l = .bnz f target ∧ s.host.statusSeen = none ∧ hostAct l s = .fault .noStatusRead) ∨
    (∃ idx, l = .read idx ∧ regWritten idx s = false ∧ hostAct l s = .fault (.unwrittenRead idx)) ∨
    ∃ idx v i k, l = .write idx v ∧ regName idx = .cmd ∧ s.status.busy = false ∧ decode v = .op i ∧
      firstUnwritten i s.opr = some k ∧ hostAct l s = .fault (.unwrittenOperand i k) := by
  cases l with
  | read idx =>
    rcases regRead_cases idx s with ⟨_, e⟩ | ⟨hw, e⟩
    · exact absurd (by simp only [hostAct, e]) (h (s.received idx (regWord idx s)))
    · exact .inr (.inl ⟨idx, rfl, hw, by simp only [hostAct, e]⟩)
  | platformReset => exact absurd rfl (h _)
  | write idx v =>
    obtain ⟨hn, hb, i, k, hd, hf, e⟩ := regWrite_stops h
    exact .inr (.inr ⟨idx, v, i, k, rfl, hn, hb, hd, hf, e⟩)
  | bnz f target =>
    cases hw : s.host.statusSeen with
    | none => exact .inl ⟨f, target, rfl, rfl, by simp [hostAct, hw]⟩
    | some w => exact absurd (by simp [hostAct, hw]) (h (if fieldNonzero f w then s.jump target else s))

/-- Everything a host line can do when it answers a next state (R41, R42, R60, R65, R130). -/
theorem hostAct_next {l : HostLine} {s t : State} (h : hostAct l s = .next t) :
    (∃ idx w, l = .read idx ∧ regRead idx s = .ok w ∧ t = s.received idx w) ∨
    (∃ idx v, l = .write idx v ∧ regWrite idx v s = .next t) ∨
    (∃ f target w, l = .bnz f target ∧ s.host.statusSeen = some w ∧
      t = if fieldNonzero f w then s.jump target else s) ∨
    (l = .platformReset ∧ t = s.platformReset) := by
  cases l with
  | read idx =>
    rcases regRead_cases idx s with ⟨_, e⟩ | ⟨_, e⟩ <;> simp only [hostAct, e] at h <;> cases h
    exact .inl ⟨idx, _, rfl, e, rfl⟩
  | write idx v => exact .inr (.inl ⟨idx, v, rfl, h⟩)
  | bnz f target =>
    simp only [hostAct] at h
    cases hw : s.host.statusSeen with
    | none => rw [hw] at h; cases h
    | some w => rw [hw] at h; cases h; exact .inr (.inr (.inl ⟨f, target, w, rfl, rfl, rfl⟩))
  | platformReset => cases h; exact .inr (.inr (.inr ⟨rfl, rfl⟩))

/-- Everything a step can do when it answers a next state (R26, R48): a completion, or a host line after the tick, or
nothing when the host has no line left. -/
theorem step_next {s t : State} (h : step s = .next t) :
    (coreTurn s = true ∧ ∃ i, decodeOpc s.latch.op = .op i ∧ t = s.complete (execResults i s.latch.v)) ∨
    (coreTurn s = false ∧ ∃ l, s.host.script[s.host.line]? = some l ∧ hostAct l s.tick = .next t) ∨
    (coreTurn s = false ∧ s.host.script[s.host.line]? = none ∧ t = s) := by
  unfold step at h
  cases hc : coreTurn s
  · simp only [hc, Bool.false_eq_true, if_false, hostMove] at h
    cases hl : s.host.script[s.host.line]? with
    | none => rw [hl] at h; cases h; exact .inr (.inr ⟨rfl, rfl, rfl⟩)
    | some l => rw [hl] at h; exact .inr (.inl ⟨rfl, l, rfl, h⟩)
  · simp only [hc, if_true, coreMove] at h
    cases hd : decodeOpc s.latch.op with
    | unsupported => rw [hd] at h; cases h
    | op i =>
      rw [hd] at h
      simp only [exec_eq] at h
      cases h
      exact .inl ⟨rfl, i, rfl, rfl⟩

/-- A step on the core's turn (R26). -/
theorem step_core {s : State} {i : Instr} (hc : coreTurn s = true) (hd : decodeOpc s.latch.op = .op i) :
    step s = exec i s := by
  simp [step, hc, coreMove, hd]

/-- A step on the host's turn (R48). -/
theorem step_host {s : State} {l : HostLine} (hc : coreTurn s = false)
    (hl : s.host.script[s.host.line]? = some l) : step s = hostAct l s.tick := by
  simp [step, hc, hostMove, hl]

end Sys2Proof.Machine
end

