-- ==== Sys2Proof/Laws/PerInstr.lean ====
section
/-! SUPPORT. Statements for all instructions, made per instruction. -/

namespace Sys2Proof.Laws.ValidWord

/-- The encoder gives a valid command word, RSVD = 0 and an assigned opcode (R57). -/
def Statement (i : Instr) : Prop := i.wellFormed = true → commandWordValid (encode i) = true

theorem fadd : Statement .fadd := fun _ => by decide
theorem fsub : Statement .fsub := fun _ => by decide
theorem fmul : Statement .fmul := fun _ => by decide
theorem addmod : Statement .addmod := fun _ => by decide
theorem submod : Statement .submod := fun _ => by decide
theorem mulmod : Statement .mulmod := fun _ => by decide
theorem finv : Statement .finv := fun _ => by decide
theorem oncurve : Statement .oncurve := fun _ => by decide
theorem oncurvek1 : Statement .oncurvek1 := fun _ => by decide
theorem tojac : Statement .tojac := fun _ => by decide
theorem toaff : Statement .toaff := fun _ => by decide
theorem jadd : Statement .jadd := fun _ => by decide

end Sys2Proof.Laws.ValidWord
end

