-- ==== Sys2Proof/Laws/Prime.lean ====
section
/-! SUPPORT. The field modulus is prime (the source's claim behind spec/41_modular_inverse.md R84), by a Pratt certificate. -/

namespace Sys2Proof.Machine

/-- `a ^ n % p` by repeated squaring, for n < 2 ^ fuel. -/
def powMod (p : ℕ) : ℕ → ℕ → ℕ → ℕ
  | 0, _, _ => 1 % p
  | fuel + 1, a, n =>
    if n = 0 then 1 % p
    else if n % 2 = 1 then a * powMod p fuel (a * a % p) (n / 2) % p
    else powMod p fuel (a * a % p) (n / 2)

theorem powMod_eq (p fuel a n : ℕ) (h : n < 2 ^ fuel) : powMod p fuel a n = a ^ n % p := by
  induction fuel generalizing a n with
  | zero => obtain rfl : n = 0 := by simpa using h
            rfl
  | succ fuel ih =>
    have hn := Nat.div_add_mod n 2
    have hlt : n / 2 < 2 ^ fuel := by rw [pow_succ] at h; omega
    have hsq : (a * a % p) ^ (n / 2) % p = a ^ (2 * (n / 2)) % p := by
      rw [← Nat.pow_mod, pow_mul, sq]
    unfold powMod
    split
    · rename_i h0; simp [h0]
    · rw [ih _ _ hlt, hsq]
      split
      · rename_i h1
        rw [Nat.mul_mod_mod, ← pow_succ', ← h1, hn]
      · rename_i h1
        have h0 : n % 2 = 0 := by omega
        rw [h0] at hn
        rw [add_zero] at hn
        rw [hn]

/-- The check of a certificate: the factors multiply to p - 1, and `a` has order p - 1 modulo p. -/
def certificateOk (p a : ℕ) (fs : List ℕ) : Bool :=
  decide (1 < p) && decide (fs.prod = p - 1) && decide (p < 2 ^ 256) && decide (powMod p 256 a (p - 1) = 1) &&
    fs.all fun q => decide (powMod p 256 a ((p - 1) / q) ≠ 1)

/-- Lucas's test: `a` has order p - 1 modulo p, so p is prime. `fs` holds the primes of p - 1. -/
theorem prime_of_certificate (p a : ℕ) (fs : List ℕ) (hok : certificateOk p a fs = true)
    (hfs : ∀ q ∈ fs, q.Prime) : p.Prime := by
  simp only [certificateOk, Bool.and_eq_true, decide_eq_true_eq, List.all_eq_true] at hok
  obtain ⟨⟨⟨⟨hp, hprod⟩, hlt⟩, h1⟩, h2⟩ := hok
  have cast_pow (n : ℕ) (hn : n < 2 ^ 256) : ((a : ZMod p) ^ n = 1) ↔ powMod p 256 a n = 1 := by
    have h := ZMod.natCast_eq_natCast_iff' (a ^ n) 1 p
    rw [Nat.mod_eq_of_lt hp, ← powMod_eq p 256 a n hn] at h
    rw [← h]; push_cast; rfl
  refine lucas_primality p (a : ZMod p) ((cast_pow _ (by omega)).2 h1) fun q hq hdvd => ?_
  have hdvd' := hdvd
  rw [← hprod] at hdvd
  obtain ⟨r, hr, hqr⟩ := (hq.prime.dvd_prod_iff).1 hdvd
  obtain rfl : q = r := (Nat.prime_dvd_prime_iff_eq hq (hfs r hr)).1 hqr
  have hle : (p - 1) / q < 2 ^ 256 := lt_of_le_of_lt (Nat.div_le_self _ _) (by omega)
  exact fun h => h2 q hr ((cast_pow _ hle).1 h)

theorem prime_13331831 : Nat.Prime 13331831 := by norm_num

theorem prime_7240687 : Nat.Prime 7240687 := by norm_num

theorem prime_107590001 : Nat.Prime 107590001 := by norm_num

theorem prime_173378833005251801 : Nat.Prime 173378833005251801 :=
  prime_of_certificate _ 6 [2, 2, 2, 5, 5, 2621, 24809, 13331831] (by decide +kernel) (by
    simp only [List.forall_mem_cons, List.not_mem_nil, false_imp_iff, implies_true, and_true]
    exact ⟨by norm_num, by norm_num, by norm_num, by norm_num, by norm_num, by norm_num, by norm_num, prime_13331831⟩)

theorem prime_22149492674086928081353 : Nat.Prime 22149492674086928081353 :=
  prime_of_certificate _ 5 [2, 2, 2, 3, 5323, 173378833005251801] (by decide +kernel) (by
    simp only [List.forall_mem_cons, List.not_mem_nil, false_imp_iff, implies_true, and_true]
    exact ⟨by norm_num, by norm_num, by norm_num, by norm_num, by norm_num, prime_173378833005251801⟩)

theorem prime_132896956044521568488119 : Nat.Prime 132896956044521568488119 :=
  prime_of_certificate _ 6 [2, 3, 22149492674086928081353] (by decide +kernel) (by
    simp only [List.forall_mem_cons, List.not_mem_nil, false_imp_iff, implies_true, and_true]
    exact ⟨by norm_num, by norm_num, prime_22149492674086928081353⟩)

theorem prime_255515944373312847190720520512484175977 : Nat.Prime 255515944373312847190720520512484175977 :=
  prime_of_certificate _ 3 [2, 2, 2, 7, 7, 11, 1627, 2657, 4423, 41201, 96557, 7240687, 107590001] (by decide +kernel) (by
    simp only [List.forall_mem_cons, List.not_mem_nil, false_imp_iff, implies_true, and_true]
    exact ⟨by norm_num, by norm_num, by norm_num, by norm_num, by norm_num, by norm_num, by norm_num, by norm_num, by norm_num, by norm_num, by norm_num, prime_7240687, prime_107590001⟩)

theorem prime_205115282021455665897114700593932402728804164701536103180137503955397371 : Nat.Prime 205115282021455665897114700593932402728804164701536103180137503955397371 :=
  prime_of_certificate _ 10 [2, 3, 5, 29, 29, 31, 7723, 132896956044521568488119, 255515944373312847190720520512484175977] (by decide +kernel) (by
    simp only [List.forall_mem_cons, List.not_mem_nil, false_imp_iff, implies_true, and_true]
    exact ⟨by norm_num, by norm_num, by norm_num, by norm_num, by norm_num, by norm_num, by norm_num, prime_132896956044521568488119, prime_255515944373312847190720520512484175977⟩)

/-- P is prime (R84: "this always holds for `0 < z < P` when `P` is prime, which is the case"). -/
theorem prime_p : Nat.Prime (2 ^ 256 - 2 ^ 32 - 977) :=
  prime_of_certificate _ 3 [2, 3, 7, 13441, 205115282021455665897114700593932402728804164701536103180137503955397371] (by decide +kernel) (by
    simp only [List.forall_mem_cons, List.not_mem_nil, false_imp_iff, implies_true, and_true]
    exact ⟨by norm_num, by norm_num, by norm_num, by norm_num, prime_205115282021455665897114700593932402728804164701536103180137503955397371⟩)

end Sys2Proof.Machine
end

