-- ==== Sys2Proof/Tests/Slice0.lean ====
section
/-! SUPPORT. The model's own tests. Expected values come from spec/95_test_vectors.md (the section or row is named) or
from the encodings of spec/30_encoding.md written out by hand; the last part shows, for each statement with hypotheses, a
concrete state and operands that meet them. -/

namespace Sys2Proof.Tests

open Sys2Proof.Machine Sys2Proof.Claims

/-! ### Helpers -/

/-- 2^256 - 1. -/
def ones : Word := BitVec.allOnes 256

/-- P. -/
def wP : Word := Config.rom.p

/-- G_x and G_y. -/
def gX : Word := Config.rom.gx
def gY : Word := Config.rom.gy

/-- 2G and 3G (95 section 1). -/
def x2G : Word := 0xC6047F9441ED7D6D3045406E95C07CD85C778E4B8CEF3CA7ABAC09B95C709EE5#256
def y2G : Word := 0x1AE168FEA63DC339A3C58419466CEAEEF7F632653266D0E1236431A950CFE52A#256
def x3G : Word := 0xF9308A019258C31049344F85F89D5229B531C845836F99B08601F113BCE036F9#256
def y3G : Word := 0x388F7B0F632DE8140FE337E62A37F3566500A99934C2231B6CB9FD7584B8E672#256

/-- A state in which the latched command is `op` on these words and its completion step is next. -/
def inFlight (op : BitVec 8) (v : OperandWords) : State :=
  { State.reset with
    status := ⟨true, false, false, false, 0#4⟩
    cmd := 0#248 ++ op
    latch := ⟨op, v⟩
    opr := ⟨⟨v.v0, true⟩, ⟨v.v1, true⟩, ⟨v.v2, true⟩, ⟨v.v3, true⟩, ⟨v.v4, true⟩⟩ }

/-- The three results after one step, if it answers a next state with DONE. -/
def resultsAfter (s : State) : Option Results :=
  match step s with
  | .next t => if t.status.word = 2#256 then some t.res.results else none
  | _ => none

/-- One command from its latched words (95 section 3: STATUS after each row is 0x2). -/
def run1 (op : BitVec 8) (v0 v1 v2 v3 v4 : Word) : Option Results := resultsAfter (inFlight op ⟨v0, v1, v2, v3, v4⟩)

/-- The machine with this host program, after reset. -/
def hosted (lines : List HostLine) : State := State.reset.withScript lines

/-- As `hosted`, with this STATUS, OPR0 and OPR1 written and RES holding results 1, 2, 3 (95 section 3.6). -/
def before (st : Status) (lines : List HostLine) : State :=
  { hosted lines with
    status := st
    opr := ⟨⟨2#256, true⟩, ⟨4#256, true⟩, .atReset 0 2, .atReset 0 3, .atReset 0 4⟩
    res := ⟨⟨1#256, true⟩, ⟨2#256, true⟩, ⟨3#256, true⟩⟩
    timing := ⟨1, [], 0⟩ }

/-- CMD, STATUS and RES0 after one step. -/
def portAfter (s : State) : Option (Word × Word × Word) :=
  match step s with
  | .next t => some (t.cmd, t.status.word, t.res.r0.value)
  | _ => none

/-- What the host reads in one step. -/
def readAfter (s : State) : Option Word :=
  match step s with
  | .next t => t.host.readData
  | _ => none

/-- The fault of one step. -/
def faultOf (s : State) : Option Fault :=
  match step s with
  | .fault f => some f
  | _ => none

def stDone : Status := ⟨false, true, false, false, 0#4⟩
def stBusy : Status := ⟨true, false, false, false, 0#4⟩
def stErr : Status := ⟨false, false, true, false, 1#4⟩

/-! ### Well-formedness: one ill-formed word for each check (R57) -/

theorem test_wf_rsvd_must_be_zero : commandWordValid 0x101#256 = false := by decide
theorem test_wf_rsvd_top_bit : commandWordValid (1#1 ++ 0#247 ++ 0x0C#8) = false := by decide
theorem test_wf_opc_zero : commandWordValid 0x00#256 = false := by decide
theorem test_wf_opc_above_twelve : commandWordValid 0x0D#256 = false := by decide
theorem test_wf_accepts_twelve : commandWordValid 0x0C#256 = true := by decide
theorem test_wf_call_arity : assemble [.call .fadd [1#256]] = none := by decide
theorem test_wf_unknown_label : assemble [.bnz .busy "w"] = none := by decide

/-! ### Decoding: command words written out bit by bit, RSVD then the eight bits of OPC (R57, R59) -/

theorem test_decode_fadd : decode (0#248 ++ 0b00000001#8) = .op .fadd := by decide
theorem test_decode_fsub : decode (0#248 ++ 0b00000010#8) = .op .fsub := by decide
theorem test_decode_fmul : decode (0#248 ++ 0b00000011#8) = .op .fmul := by decide
theorem test_decode_addmod : decode (0#248 ++ 0b00000100#8) = .op .addmod := by decide
theorem test_decode_submod : decode (0#248 ++ 0b00000101#8) = .op .submod := by decide
theorem test_decode_mulmod : decode (0#248 ++ 0b00000110#8) = .op .mulmod := by decide
theorem test_decode_finv : decode (0#248 ++ 0b00000111#8) = .op .finv := by decide
theorem test_decode_oncurve : decode (0#248 ++ 0b00001000#8) = .op .oncurve := by decide
theorem test_decode_oncurvek1 : decode (0#248 ++ 0b00001001#8) = .op .oncurvek1 := by decide
theorem test_decode_tojac : decode (0#248 ++ 0b00001010#8) = .op .tojac := by decide
theorem test_decode_toaff : decode (0#248 ++ 0b00001011#8) = .op .toaff := by decide
theorem test_decode_jadd : decode (0#248 ++ 0b00001100#8) = .op .jadd := by decide
theorem test_decode_zero_is_no_nop : decode 0x00#256 = .unsupported := by decide
theorem test_decode_ff : decode 0xFF#256 = .unsupported := by decide
theorem test_decode_rsvd : decode 0x101#256 = .unsupported := by decide
theorem test_decode_table_word : decodeTableWord 256 0x0C = some .jadd := by decide
theorem test_image_msb_first : (imageOfWord (0xAB#8 ++ 0#240 ++ 0x0C#8))[0]? = some 0xAB#8 := by decide
theorem test_image_decodes : decodeImage (imageOfWord 0x07#256) = .op .finv := by decide

/-! ### One command, one step (95 section 3) -/

-- 95 section 3.1, FADD rows 4 and 5.
theorem test_fadd_no_wrap : run1 0x01#8 ones 1 9 9 9 = some ⟨0x1000003D1#256, 0, 0⟩ := by decide
theorem test_fadd_exact_sum : run1 0x01#8 ones ones 9 9 9 = some ⟨0x2000007A0#256, 0, 0⟩ := by decide
-- 95 section 3.1, FSUB rows 1 and 5.
theorem test_fsub_below_zero : run1 0x02#8 0 1 9 9 9 = some ⟨wP - 1, 0, 0⟩ := by decide
theorem test_fsub_above_p : run1 0x02#8 5 ones 9 9 9 =
    some ⟨0xFFFFFFFFFFFFFFFFFFFFFFFFFFFFFFFFFFFFFFFFFFFFFFFFFFFFFFFDFFFFF864#256, 0, 0⟩ := by decide
-- 95 section 3.1, FMUL rows 5 and 7.
theorem test_fmul_exact_product : run1 0x03#8 ones ones 9 9 9 = some ⟨0x1000007A0000E8900#256, 0, 0⟩ := by
  decide
theorem test_fmul_generator : run1 0x03#8 gX gY 9 9 9 =
    some ⟨0xFD3DC529C6EB60FB9D166034CF3C1A5A72324AA9DFD3428A56D7E1CE0179FD9B#256, 0, 0⟩ := by decide
-- 95 section 3.1, ADDMOD rows 2 and 4.
theorem test_addmod_no_wrap : run1 0x04#8 ones 2 10 9 9 = some ⟨7, 0, 0⟩ := by decide
theorem test_addmod_zero_modulus : run1 0x04#8 5 6 0 9 9 = some ⟨0, 0, 0⟩ := by decide
-- 95 section 3.1, SUBMOD rows 3 and 5.
theorem test_submod_above_modulus : run1 0x05#8 3 20 7 9 9 = some ⟨4, 0, 0⟩ := by decide
theorem test_submod_wide_modulus : run1 0x05#8 0 1 ones 9 9 = some ⟨ones - 1, 0, 0⟩ := by decide
-- 95 section 3.1, MULMOD rows 2 and 4.
theorem test_mulmod_not_truncated : run1 0x06#8 ones ones 10 9 9 = some ⟨5, 0, 0⟩ := by decide
theorem test_mulmod_wide : run1 0x06#8 (1#1 ++ 0#255) 4 ones 9 9 = some ⟨2, 0, 0⟩ := by decide
-- 95 section 3.2, row GX.
theorem test_finv_gx : run1 0x07#8 gX 9 9 9 9 =
    some ⟨0x237AFDF1D2938D86870AAEB8AD77626A67B8E794ABFB076BE61D003687CA9EF6#256, 0, 0⟩ := by decide +kernel
-- 95 section 3.2, the trace of FINV(7) after its first iteration.
theorem test_finv_trace : InvState.run 1 (.start 7) =
    ⟨7, 1, 1, 0xDB6DB6DB6DB6DB6DB6DB6DB6DB6DB6DB6DB6DB6DB6DB6DB6DB6DB6DA9249214D⟩ := by decide
-- 95 section 3.3, ONCURVE rows 4 and 7.
theorem test_oncurve_unreduced_x : run1 0x08#8 2 4 17 17 2 = some ⟨1, 0, 0⟩ := by decide
theorem test_oncurve_zero_modulus : run1 0x08#8 2 4 0 5 9 = some ⟨1, 0, 0⟩ := by decide
-- 95 section 3.3, ONCURVEK1 rows 1 and 3.
theorem test_oncurvek1_generator : run1 0x09#8 gX gY 9 9 9 = some ⟨1, 0, 0⟩ := by decide
theorem test_oncurvek1_off_curve : run1 0x09#8 gX (gY + 1) 9 9 9 = some ⟨0, 0, 0⟩ := by decide
-- 95 section 3.4, TOJAC rows 2 and 3.
theorem test_tojac_unreduced : run1 0x0A#8 ones wP 9 9 9 = some ⟨ones, wP, 1⟩ := by decide
theorem test_tojac_sentinel : run1 0x0A#8 0 0 9 9 9 = some ⟨0, 0, 1⟩ := by decide
-- 95 section 3.4, TOAFF rows 2 and 6.
theorem test_toaff_scaled_by_two : run1 0x0B#8 0xE6F999FBE772EEB156818A573A1C2C1C0A6FF36CB738A36567CA056D5BE06231#256
    0x41D6D3B9351E232AED27DFE070884547E8BDA245342AA0CCE23E8481D886AD62#256 2 9 9 = some ⟨gX, gY, 0⟩ := by
  decide
theorem test_toaff_z_is_p : run1 0x0B#8 5 6 wP 9 9 = some ⟨5, 6, 0⟩ := by decide
-- 95 section 3.5, row 1.
theorem test_jadd_2g_plus_g : run1 0x0C#8 x2G y2G 1 gX gY =
    some ⟨0xF987A55F2DFAE4948555C8B4DC15AD6072B36652735F6BAE9A0B607BA0A609B4#256,
      0x64D98EA59F89E16E7610DAEA2350366B2A82B6C1A4AFB1F8289AFFA21A73DD28#256,
      0x6773CDD56FDE7C7E4AB6444E718D1C5D4C48DD1F41BDD8635C8CEF42750EED95#256⟩ := by decide

/-! ### CMD writes and STATUS (95 section 3.6) -/

theorem test_accept_sets_busy : portAfter (before ⟨false, false, false, false, 0⟩ [.write 8 0x01]) =
    some (0x01, 0x1, 1) := by decide
theorem test_reject_zero : portAfter (before stDone [.write 8 0x00]) = some (0x00, 0x104, 1) := by decide
theorem test_reject_rsvd : portAfter (before stDone [.write 8 0x101]) = some (0x101, 0x104, 1) := by decide
theorem test_reject_top_bit : portAfter (before stDone [.write 8 (1#1 ++ 0#247 ++ 0x0C#8)]) =
    some (1#1 ++ 0#247 ++ 0x0C#8, 0x104, 1) := by decide
theorem test_second_rejection : portAfter (before stErr [.write 8 0x0D]) = some (0x0D, 0x104, 1) := by decide
theorem test_accept_clears_err : portAfter (before stErr [.write 8 0x0A]) = some (0x0A, 0x1, 1) := by decide
theorem test_drop_while_busy : portAfter (before stBusy [.write 8 0x03]) = some (0, 0x9, 1) := by decide
theorem test_drop_undecoded : portAfter (before stBusy [.write 8 0x00]) = some (0, 0x9, 1) := by decide
theorem test_completion_keeps_drop :
    portAfter { inFlight 0x01#8 ⟨2, 4, 0, 0, 0⟩ with status := ⟨true, false, false, true, 0⟩ } =
    some (0x01, 0xA, 6) := by decide
theorem test_accept_clears_drop : portAfter (before ⟨false, true, false, true, 0⟩ [.write 8 0x03]) =
    some (0x03, 0x1, 1) := by decide

/-! ### Register indices (95 section 3.6, second table) -/

theorem test_read_reserved : readAfter (hosted [.read 12]) = some 0 := by decide
theorem test_write_res_ignored : portAfter (before stDone [.write 5 77]) = some (0, 0x2, 1) := by decide
theorem test_write_status_ignored : portAfter (before stDone [.write 9 77]) = some (0, 0x2, 1) := by decide
theorem test_read_cmd_after_reset : readAfter (hosted [.read 8]) = some 0 := by decide
theorem test_read_status_after_reset : readAfter (hosted [.read 9]) = some 0 := by decide
theorem test_read_unwritten_opr : faultOf (hosted [.read 0]) = some (.unwrittenRead 0) := by decide
theorem test_issue_unwritten_operand :
    faultOf { hosted [.write 8 0x01] with opr := State.reset.opr.write 0 5 } = some (.unwrittenOperand .fadd 1) := by
  decide
theorem test_issue_ignores_unread_oprs : portAfter (before stDone [.write 8 0x0A]) = some (0x0A, 0x1, 1) := by
  decide

/-! ### Host lines, reset and the script notation (R65, R66, R130) -/

theorem test_bnz_before_status_read : faultOf (hosted [.bnz .busy 0]) = some .noStatusRead := by decide
-- The expansion of CALL in R66, for TOJAC: two operand writes, ISSUE, WAIT at its own line, three reads.
theorem test_call_expands : assemble [.call .tojac [3, 5]] =
    some [.write 0 3, .write 1 5, .write 8 0x0A, .read 9, .bnz .busy 3, .read 5, .read 6, .read 7] := by decide
-- A label names the next line (R65).
theorem test_label_names_next_line : assemble [.wrOpr 0 1, .label "w", .rdStatus, .bnz .busy "w"] =
    some [.write 0 1, .read 9, .bnz .busy 1] := by decide
-- 70 R130: a command in flight is abandoned.
theorem test_reset_abandons : ∃ t, step { inFlight 0x07#8 ⟨2, 0, 0, 0, 0⟩ with
      host := ⟨[.platformReset], 0, none, none⟩, timing := ⟨1, [], 1⟩ } = .next t ∧
    t.status.word = 0 ∧ t.cmd = 0 ∧ t.opr.r0 = ⟨Config.resetData 1 0, false⟩ := ⟨_, rfl, by decide, by decide, rfl⟩
-- A row of the table runs as the first instruction after reset.
theorem test_first_instruction_runs : resultsAfter (State.reset.withFetchWord 256 0x0A) =
    some ⟨Config.resetData 0 0, Config.resetData 0 1, 1⟩ := rfl

/-! ### Witnesses: a state and operands that meet the hypotheses of each statement -/

theorem test_witness_OpcodeMapDecodes : (0#8).toNat = 0 ∧ 0x0D ≤ (0x0D#8).toNat ∧ 0x0D ≤ (0xFF#8).toNat ∧
    ¬0x0D ≤ (0x0C#8).toNat := by decide
theorem test_witness_SourceSubtractionFormAgrees :
    (0 < (7#256).toNat ∧ (3#256).toNat ≤ (7#256).toNat) ∧ (0 < wP.toNat ∧ wP.toNat ≤ wP.toNat ∧ wP = Config.rom.p) := by
  decide
theorem test_witness_ResultsAreReduced : 0 < (OperandWords.mk 5 6 1 0 0).v2.toNat := by decide
theorem test_witness_ByteImageRoundTrip : wordOfImage (List.replicate 31 0#8 ++ [7#8]) = some 7#256 := by
  decide
theorem test_witness_FinvIsTheInverse : let s := inFlight 0x07#8 ⟨wP - 1, 0, 0, 0, 0⟩
    0 < s.latch.v.v0.toNat ∧ s.latch.v.v0.toNat < fieldModulus := by decide
theorem test_witness_FinvAtAndAboveP :
    (ones.toNat = fieldModulus + (0x1000003D0#256).toNat ∧ 0 < (0x1000003D0#256).toNat) ∧
    ((wP + 1).toNat = fieldModulus + (1#256).toNat ∧ 0 < (1#256).toNat) ∧ (2#256 ≠ 0#256 ∧ 2#256 ≠ Config.rom.p) := by decide
theorem test_witness_FinvOfZeroIsZero : (inFlight 0x07#8 ⟨0, 1, 2, 3, 4⟩).latch.v.v0 = 0#256 := by decide
theorem test_witness_InverterIterationsBounded :
    (0 < (1#256).toNat ∧ (1#256).toNat < fieldModulus) ∧ (wP - 1).toNat < fieldModulus ∧
    fieldModulus < (wP + 1).toNat ∧ fieldModulus < ones.toNat := by decide
theorem test_witness_InverterVariablesInRange : (InvState.run 0 (.start ones)).z ≠ 0 ∧
    (InvState.run 1 (.start 2)).z ≠ 0 := by decide
theorem test_witness_LiftThenProjectRoundTrip : gX.toNat < fieldModulus ∧ (wP - 1).toNat < fieldModulus := by
  decide
theorem test_witness_ToaffOfDegenerateZ : (0#256).toNat % fieldModulus = 0 ∧ wP.toNat % fieldModulus = 0 := by
  decide
theorem test_witness_ToaffGivesTheAffinePoint : (2#256).toNat % fieldModulus ≠ 0 ∧ ones.toNat % fieldModulus ≠ 0 := by
  decide
theorem test_witness_JaddReducesRawCoordinates : (1#256).toNat = (wP + 1).toNat % fieldModulus ∧
    gY.toNat = gY.toNat % fieldModulus := by decide
-- Doubling G (h = 0), z1 = 0, a result with z3 = 0, and negation of G.
theorem test_witness_JaddOnDegenerateInputs :
    (((gX.toNat : Int) * (1#256).toNat ^ 2 - gX.toNat) % fieldModulus = 0) ∧
    (jaddResults 0 0 0 gX gY).r2 = 0#256 ∧
    (((gY.toNat : Int) * (1#256).toNat ^ 3 - gY.toNat) % fieldModulus = 0) ∧
    (0 < gY.toNat ∧ gY.toNat < fieldModulus ∧ gY.toNat + (wP - gY).toNat = fieldModulus) ∧
    ((wP - 1).toNat < fieldModulus ∧ (wP - 1).toNat + (1#256).toNat = fieldModulus) := by decide
theorem test_witness_JaddIsTheAffineSum : let q := toaffResults x2G y2G 1
    (1#256).toNat % fieldModulus ≠ 0 ∧ ((gX.toNat : Int) - q.r0.toNat) % fieldModulus ≠ 0 ∧
    ((0x342119815C0F816F31F431A9FE98A6C76D11425ECAEAECF2D0EF6DEF197C56B0 : Int) * (gX.toNat - q.r0.toNat) -
      (gY.toNat - q.r1.toNat)) % fieldModulus = 0 := by decide
-- ... and the sum of 2G and G is 3G (95 section 1).
theorem test_witness_JaddIsTheAffineSum_value : let j := jaddResults x2G y2G 1 gX gY
    toaffResults j.r0 j.r1 j.r2 = ⟨x3G, y3G, 0⟩ := by decide +kernel
theorem test_witness_JaddStaysOnTheCurve : let q := toaffResults x2G y2G 1
    (1#256).toNat % fieldModulus ≠ 0 ∧ ((gX.toNat : Int) - q.r0.toNat) % fieldModulus ≠ 0 ∧
    (oncurvek1Results q.r0 q.r1).r0 = 1#256 ∧ (oncurvek1Results gX gY).r0 = 1#256 := by decide
theorem test_witness_ResultsDependOnReadOperandsOnly :
    ∀ k ∈ operandsOf .finv, (inFlight 7#8 ⟨5, 6, 7, 8, 9⟩).latch.v.get k = (inFlight 7#8 ⟨5, 0, 0, 0, 0⟩).latch.v.get k := by
  decide
theorem test_witness_StepRunsTheLatchedCommand : let s := inFlight 0x0C#8 ⟨1, 2, 3, 4, 5⟩
    coreTurn s = true ∧ decodeOpc s.latch.op = .op .jadd := by decide
theorem test_witness_CompletionNeverStops : (inFlight 0x01#8 ⟨1, 2, 0, 0, 0⟩).Inv ∧
    coreTurn (inFlight 0x01#8 ⟨1, 2, 0, 0, 0⟩) = true := by decide
theorem test_witness_CommandWhileBusyIsDropped : HostAt (before stBusy [.write 8 3]) (.write 8 3) ∧
    (before stBusy [.write 8 3]).status.busy = true := ⟨⟨by decide, by decide⟩, by decide⟩
-- RSVD = 1, OPC = 0, OPC = 0x0D and OPC = 0xFF.
theorem test_witness_UnsupportedWordIsRejected :
    (HostAt (hosted [.write 8 0x101]) (.write 8 0x101) ∧ (hosted [.write 8 0x101]).status.busy = false) ∧
    (0x101#256).toNat / 2 ^ 8 ≠ 0 ∧ (0#256).toNat % 2 ^ 8 = 0 ∧ 0x0D ≤ (0x0D#256).toNat % 2 ^ 8 ∧
    0x0D ≤ (0xFF#256).toNat % 2 ^ 8 := ⟨⟨⟨by decide, by decide⟩, by decide⟩, by decide⟩
theorem test_witness_ValidWordIsIssued : let s := before stDone [.write 8 (encode .fadd)]
    HostAt s (.write 8#4 (encode .fadd)) ∧ s.status.busy = false ∧
    ∀ k ∈ operandsOf .fadd, (s.opr.get k).written = true := ⟨⟨by decide, by decide⟩, by decide, by decide⟩
-- An issue with an unwritten operand, and reads of unwritten registers at indices 0, 4, 5 and 7.
theorem test_witness_ResetDataIsNamedAndDoesNotLeak :
    (HostAt (before stDone [.write 8 (encode .jadd)]) (.write 8#4 (encode .jadd)) ∧
      (before stDone [.write 8 (encode .jadd)]).status.busy = false ∧
      ∃ k ∈ operandsOf .jadd, ((before stDone [.write 8 (encode .jadd)]).opr.get k).written = false) ∧
    (HostAt (hosted [.read 4]) (.read 4) ∧ HostAt (hosted [.read 7]) (.read 7)) ∧
    (0#4).toNat = (0 : Fin 5).val ∧ (4#4).toNat = (4 : Fin 5).val ∧ ((hosted [.read 4]).opr.get 4).written = false ∧
    (5#4).toNat = 5 + (0 : Fin 3).val ∧ (7#4).toNat = 5 + (2 : Fin 3).val ∧
    ((hosted [.read 7]).res.get 2).written = false :=
  ⟨⟨⟨by decide, by decide⟩, by decide, by decide⟩, ⟨⟨by decide, by decide⟩, ⟨by decide, by decide⟩⟩, by decide⟩
-- Two states that differ in the word of the unwritten OPR2.
theorem test_witness_ResetDataDoesNotLeak : let s := { before stDone [.read 0] with timing := ⟨0, [3], 0⟩ }
    let s' := { s with opr := { s.opr with r2 := ⟨77, false⟩ } }
    s.agreeButResetData s' ∧ (∀ op, s'.nextDelay op = s.nextDelay op) ∧ ∃ t, step s = .next t := by
  refine ⟨⟨fun k => ?_, fun k => ⟨rfl, fun _ => rfl⟩, rfl, rfl, rfl, rfl, rfl, fun h => absurd h (by decide)⟩,
    fun _ => rfl, _, rfl⟩
  match k with
  | 0 | 1 | 3 | 4 => exact ⟨rfl, fun _ => rfl⟩
  | 2 => exact ⟨rfl, fun h => absurd h (by decide)⟩
-- The clauses of the read table at the ends of their ranges: OPR 0 and 4, RES 5 and 7, reserved 10 and 15.
theorem test_witness_RegReadByIndex : (0#4).toNat = (0 : Fin 5).val ∧ (4#4).toNat = (4 : Fin 5).val ∧
    (5#4).toNat = 5 + (0 : Fin 3).val ∧ (7#4).toNat = 5 + (2 : Fin 3).val ∧ 10 ≤ (10#4).toNat ∧ 10 ≤ (15#4).toNat := by
  decide
theorem test_witness_HostReadHasNoSideEffect :
    (HostAt (before stBusy [.read 1]) (.read 1) ∧ regRead 1#4 (before stBusy [.read 1]) = .ok 4#256) ∧
    (HostAt (hosted [.read 7]) (.read 7) ∧ regRead 7#4 (hosted [.read 7]) = .error (.unwrittenRead 7)) :=
  ⟨⟨⟨by decide, by decide⟩, rfl⟩, ⟨⟨by decide, by decide⟩, rfl⟩⟩
theorem test_witness_HostWritesOperandRegister : HostAt (before stBusy [.write 4 9]) (.write 4 9) ∧
    (4#4).toNat = (4 : Fin 5).val ∧ (0#4).toNat = (0 : Fin 5).val := ⟨⟨by decide, by decide⟩, by decide⟩
theorem test_witness_ReadOnlyWritesAreIgnored : HostAt (hosted [.write 9 1]) (.write 9 1) ∧
    (5 ≤ (5#4).toNat ∧ 5#4 ≠ 8#4) ∧ (5 ≤ (9#4).toNat ∧ 9#4 ≠ 8#4) ∧ (5 ≤ (15#4).toNat ∧ 15#4 ≠ 8#4) :=
  ⟨⟨by decide, by decide⟩, by decide⟩
theorem test_witness_StatusReadsAsOneOfSixWords : State.reset.Inv := by decide
theorem test_witness_ResetAbandonsTheCommand : let s := before stBusy [.platformReset]
    HostAt s .platformReset ∧ s.status.busy = true := ⟨⟨by decide, by decide⟩, by decide⟩
theorem test_witness_StepKeepsTheInvariant : State.reset.Inv ∧ step State.reset = .next State.reset := ⟨by decide, rfl⟩
theorem test_witness_DoneVouchesForTheResults : let s := inFlight 0x0A#8 ⟨3, 5, 0, 0, 0⟩
    s.Inv ∧ s.ResultsVouched ∧ ∃ t, step s = .next t ∧ t.status.done = true :=
  ⟨by decide, fun h => absurd h (by decide), _, rfl, rfl⟩
theorem test_witness_HostCannotTouchTheCommandInFlight : let s := before stBusy [.write 0 9]
    coreTurn s = false ∧ s.status.busy = true ∧ s.host.script[s.host.line]? ≠ some .platformReset ∧
    ∃ t, step s = .next t ∧ t.status.busy = true := ⟨by decide, by decide, by decide, _, rfl, rfl⟩
-- A completion, a reset, a drop, a rejection and an acceptance each change STATUS.
theorem test_witness_StatusIsWrittenByItsEvents :
    (∃ t, step (inFlight 1#8 ⟨1, 2, 0, 0, 0⟩) = .next t ∧ t.status = stDone) ∧
    (∃ t, step (before stErr [.platformReset]) = .next t ∧ t.status ≠ stErr) ∧
    (∃ t, step (before stBusy [.write 8 0]) = .next t ∧ t.status ≠ stBusy) ∧
    (∃ t, step (before stDone [.write 8 0]) = .next t ∧ t.status = stErr) ∧
    ∃ t, step (before stDone [.write 8 0x01]) = .next t ∧ t.status = stBusy :=
  ⟨⟨_, rfl, by decide⟩, ⟨_, rfl, by decide⟩, ⟨_, rfl, by decide⟩, ⟨_, rfl, by decide⟩, ⟨_, rfl, by decide⟩⟩
theorem test_witness_OprChangesOnlyByHostWrite : let s := before stDone [.write 1 9]
    ∃ t, step s = .next t ∧ t.opr ≠ s.opr := ⟨_, rfl, by decide⟩
theorem test_witness_CmdHoldsTheLastProcessedWrite : let s := hosted [.write 8 0x0D]
    ∃ t, step s = .next t ∧ t.cmd ≠ s.cmd := ⟨_, rfl, by decide⟩
theorem test_witness_QuiescentBlockStaysAsItIs : State.reset.quiescent = true ∧ hostFinished State.reset = true := by
  decide
theorem test_witness_CommandInFlightCompletes : let s := { inFlight 0x01#8 ⟨1, 2, 0, 0, 0⟩ with
      host := ⟨[.write 0 9, .write 8 3, .read 4, .bnz .busy 2], 0, none, some stBusy.word⟩, timing := ⟨3, [], 1⟩ }
    s.status.busy = true ∧ decodeOpc s.latch.op = .op .fadd ∧ HostLine.platformReset ∉ s.host.script ∧
      (∀ idx, HostLine.read idx ∈ s.host.script → regWritten idx s = true) ∧ s.host.statusSeen ≠ none := by decide
theorem test_witness_BranchFollowsTheLastStatusRead : let s := { hosted [] with
      host := ⟨[.bnz .busy 0, .bnz .cause 0], 0, none, some stErr.word⟩ }
    HostAt s (.bnz .busy 0) ∧ HostAt (s.jump 1) (.bnz .cause 0) ∧ s.host.statusSeen = some stErr.word :=
  ⟨⟨by decide, by decide⟩, ⟨by decide, by decide⟩, rfl⟩
theorem test_witness_CallReturnsTheResults : let lines : List HostLine :=
      [.write 0 3, .write 1 5, .write 8 0x0A, .read 9, .bnz .busy 3, .read 5, .read 6, .read 7]
    assemble [.call .tojac [3, 5]] = some lines ∧ (hosted lines).status.busy = false ∧
    (hosted lines).host = ⟨lines, 0, none, none⟩ := by decide

end Sys2Proof.Tests
end

section
/-! SUPPORT. The constant ROM read as integers: P in its second form (R5) and the generator point on the curve (R8). -/

namespace Sys2Proof.Claims

/-- R5: the two forms in which the source writes P, the ROM's literal and the power-of-two expression, agree. -/
theorem rom_p_toNat : Config.rom.p.toNat = fieldModulus := by decide

/-- R8: the ROM's G_x is a reduced coordinate. -/
theorem rom_gx_lt_fieldModulus : Config.rom.gx.toNat < fieldModulus := by decide

/-- R8: the ROM's G_y is a reduced coordinate. -/
theorem rom_gy_lt_fieldModulus : Config.rom.gy.toNat < fieldModulus := by decide

/-- R8 with the coefficients of R6: the generator satisfies y^2 ≡ x^3 + 7 (mod P), said of the integers of its two
words, before any reduction. -/
theorem rom_generator_satisfies_curve_equation :
    Config.rom.gy.toNat ^ 2 % fieldModulus = (Config.rom.gx.toNat ^ 3 + 7) % fieldModulus := by
  decide

/-- Settles O1: the words are the ROM's own fields, read off; the value of P, the ranges of the generator's coordinates
and the curve equation are the lemmas above. -/
theorem romHoldsTheCurve : Obligations.RomHoldsTheCurve :=
  ⟨rfl, rom_p_toNat, rfl, rfl, rfl, rfl, rfl, rom_gx_lt_fieldModulus, rom_gy_lt_fieldModulus,
    rom_generator_satisfies_curve_equation⟩

end Sys2Proof.Claims
end

section
/-! SUPPORT. The twelve opcodes and the opcode map are inverse to each other, so the decoder reads an encoding back
(R57, R59), and what the index map names besides OPR and CMD (R40). -/

namespace Sys2Proof

@[simp] theorem decodeOpc_opc (i : Instr) : decodeOpc i.opc = .op i := by
  cases i <;> rfl

@[simp] theorem opcField_encode (i : Instr) : opcField (encode i) = i.opc := opcField_append _ _

@[simp] theorem decode_encode (i : Instr) : decode (encode i) = .op i :=
  (decode_append_zero i.opc).trans (decodeOpc_opc i)

theorem decodeOpc_opcField_of_decode {v : Word} {i : Instr} (h : decode v = .op i) : decodeOpc (opcField v) = .op i :=
  ((decode_op_iff_fields v i).1 h).2

theorem decodeOpc_ne_unsupported_iff {o : BitVec 8} : decodeOpc o ≠ .unsupported ↔ ∃ i, decodeOpc o = .op i := by
  cases decodeOpc o <;> simp

namespace Machine

theorem regName_res {idx : BitVec 4} {k : Fin 3} : regName idx = .res k ↔ idx.toNat = 5 + k.val := by
  revert idx k; decide

theorem regName_cmdIndex : regName 8#4 = .cmd := rfl

end Machine
end Sys2Proof
end

section
/-! SUPPORT. What a step does to the block, as one relation with a case for each event of R26, R33, R42, R60 and R130; the
statements about a single step are case analyses over it. -/

namespace Sys2Proof.Claims

open Sys2Proof.Machine

theorem SameBlock.refl (s : State) : SameBlock s s := ⟨rfl, rfl, rfl, rfl, rfl⟩

/-- The events of the block that a step from `s` can be, each with the state it answers. -/
inductive StepEvent (s : State) : State → Prop where
  /-- The completion step of the latched command (R26). -/
  | completed (i : Instr) : coreTurn s = true → decodeOpc s.latch.op = .op i →
      StepEvent s (s.complete (execResults i s.latch.v))
  /-- The platform's reset (R130). -/
  | reset : HostAt s .platformReset → StepEvent s s.tick.platformReset
  /-- A host write to an operand register (R42). -/
  | oprWritten (idx : BitVec 4) (k : Fin 5) (v : Word) : HostAt s (.write idx v) → regName idx = .opr k →
      StepEvent s (s.tick.writeOpr k v)
  /-- A CMD write while BUSY = 1 (R135). -/
  | dropped (v : Word) : HostAt s (.write 8#4 v) → s.status.busy = true → StepEvent s s.tick.dropWrite
  /-- An idle CMD write of a word that is no command (R111). -/
  | rejected (v : Word) : HostAt s (.write 8#4 v) → s.status.busy = false → decode v = .unsupported →
      StepEvent s (s.tick.raiseUnsupported v)
  /-- An idle CMD write of a command whose operand registers are written (R60). -/
  | issued (v : Word) (i : Instr) : HostAt s (.write 8#4 v) → s.status.busy = false → decode v = .op i →
      firstUnwritten i s.opr = none → StepEvent s (s.tick.accept v)
  /-- A read, a branch, a write that has no effect (R43), or no host line left: the block stays as it is. -/
  | silent (t : State) : coreTurn s = false → s.host.script[s.host.line]? ≠ some .platformReset →
      (∀ v, s.host.script[s.host.line]? ≠ some (.write 8#4 v)) → SameBlock s t → StepEvent s t

/-- A host line that is neither a reset nor a CMD write, and that leaves the block, is a silent event. -/
theorem StepEvent.of_hostAt {s t : State} {l : HostLine} (h : HostAt s l) (hr : l ≠ .platformReset)
    (hw : ∀ v, l ≠ .write 8#4 v) (hb : SameBlock s t) : StepEvent s t :=
  .silent t h.1 (by rw [h.2]; simpa using hr) (fun v => by rw [h.2]; simpa using hw v) hb

/-- A host write that answers a next state is one of the events (R42, R43, R60). -/
theorem StepEvent.of_write {s t : State} {idx : BitVec 4} {v : Word} (hl : HostAt s (.write idx v))
    (h : regWrite idx v s.tick = .next t) : StepEvent s t := by
  rcases regWrite_next h with ⟨k, hn, rfl⟩ | ⟨hn, hb, rfl⟩ | ⟨hn, hb, hd, rfl⟩ | ⟨hn, hb, i, hd, hf, rfl⟩ | ⟨_, hn, rfl⟩
  · exact .oprWritten idx k v hl hn
  · exact .dropped v (regName_cmd.1 hn ▸ hl) hb
  · exact .rejected v (regName_cmd.1 hn ▸ hl) hb hd
  · exact .issued v i (regName_cmd.1 hn ▸ hl) hb hd hf
  · refine .of_hostAt hl nofun (fun w hw => hn ?_) (.refl s)
    rw [(HostLine.write.inj hw).1, regName_cmdIndex]

/-- Every step that answers a next state is one of the events. -/
theorem stepEvent_of_step {s t : State} (h : step s = .next t) : StepEvent s t := by
  rcases step_next h with ⟨hc, i, hd, rfl⟩ | ⟨hc, l, hl, hact⟩ | ⟨hc, hl, rfl⟩
  · exact .completed i hc hd
  · rcases hostAct_next hact with ⟨idx, w, rfl, -, rfl⟩ | ⟨idx, v, rfl, hw⟩ | ⟨f, target, w, rfl, -, rfl⟩ | ⟨rfl, rfl⟩
    · exact .of_hostAt ⟨hc, hl⟩ nofun nofun (.refl s)
    · exact .of_write ⟨hc, hl⟩ hw
    · refine .of_hostAt ⟨hc, hl⟩ nofun nofun ?_
      split <;> exact .refl s
    · exact .reset ⟨hc, hl⟩
  · exact .silent _ hc (by simp [hl]) (by simp [hl]) (.refl _)

end Sys2Proof.Claims
end

section
/-! SUPPORT. The invariant of the control state (R29, R33, R36): it holds after a reset, every event keeps it, and with it
every event keeps what DONE vouches for. -/

namespace Sys2Proof.Claims

open Sys2Proof.Machine

theorem busy_of_coreTurn {s : State} (h : coreTurn s = true) : s.status.busy = true := by
  simp only [coreTurn, Bool.and_eq_true] at h
  exact h.1

theorem latchedOperandsWritten_iff {s : State} :
    latchedOperandsWritten s = true ↔ ∃ i, decodeOpc s.latch.op = .op i ∧ firstUnwritten i s.opr = none := by
  unfold latchedOperandsWritten
  cases decodeOpc s.latch.op <;> simp

/-- While a command is in flight neither DONE nor ERR is set (R29). -/
theorem not_done_not_err_of_busy {st : Status} (h : st.reachable) (hb : st.busy = true) :
    st.done = false ∧ st.err = false := by
  obtain ⟨⟨-, hbd, hbe, -⟩, -⟩ := h
  exact ⟨by simpa [hb] using hbd, by simpa [hb] using hbe⟩

theorem reachable_atReset : Status.atReset.reachable := by decide

theorem reachable_accepted (st : Status) : st.accepted.reachable := by
  simp [Status.reachable, Status.legal]

theorem reachable_rejected (st : Status) : st.rejected.reachable := by
  simp [Status.reachable, Status.legal]

theorem reachable_dropped {st : Status} (h : st.reachable) (hb : st.busy = true) : st.dropped.reachable := by
  obtain ⟨-, he⟩ := not_done_not_err_of_busy h hb
  obtain ⟨hlegal, hed, -, -⟩ := h
  exact ⟨hlegal, hed, by simp [he], by simp [hb]⟩

theorem reachable_completed {st : Status} (h : st.reachable) (hb : st.busy = true) : st.completed.reachable := by
  obtain ⟨-, he⟩ := not_done_not_err_of_busy h hb
  obtain ⟨⟨hec, -, -, hc⟩, -⟩ := h
  exact ⟨⟨hec, by simp, by simp, hc⟩, by simp [he], by simp [he], by simp⟩

/-- A state just out of reset, whatever its unspecified contents, meets the invariant (R34). -/
theorem inv_of_status_atReset {s : State} (hst : s.status = .atReset) (hres : s.res.unwritten = true) : s.Inv := by
  refine ⟨hst ▸ reachable_atReset, ?_, ?_, .inr hres, ?_, ?_⟩ <;> simp [hst, Status.atReset]

theorem resultsVouched_of_not_done {s : State} (h : s.status.done = false) : s.ResultsVouched :=
  fun hd => absurd hd (by simp [h])

/-- The invariant speaks of the block's own state only. -/
theorem inv_of_sameBlock {s t : State} (h : SameBlock s t) (hs : s.Inv) : t.Inv := by
  obtain ⟨hopr, hres, hcmd, hst, hl⟩ := h
  simpa only [State.Inv, latchedOperandsWritten, hopr, hres, hcmd, hst, hl] using hs

theorem resultsVouched_of_sameBlock {s t : State} (h : SameBlock s t) (hs : s.ResultsVouched) : t.ResultsVouched := by
  obtain ⟨-, hres, hcmd, hst, hl⟩ := h
  simpa only [State.ResultsVouched, hres, hcmd, hst, hl] using hs

/-- R26, R33: a completion turns BUSY into DONE, so CMD still names the latched command and RES is written. -/
theorem inv_complete {s : State} (r : Results) (hs : s.Inv) (hb : s.status.busy = true) : (s.complete r).Inv := by
  obtain ⟨hst, hcmd, herr, -, -, -⟩ := hs
  exact ⟨reachable_completed hst hb, fun _ => hcmd (.inl hb), herr, .inl rfl, fun _ => rfl, by simp⟩

/-- R36, R138: a host write to an operand register never unmarks one, so a command in flight keeps its operands written. -/
theorem inv_writeOpr {s : State} (k : Fin 5) (v : Word) (hs : s.Inv) : (s.writeOpr k v).Inv := by
  obtain ⟨hst, hcmd, herr, hres, hdone, hopr⟩ := hs
  refine ⟨hst, hcmd, herr, hres, hdone, fun hb => ?_⟩
  obtain ⟨i, hd, hf⟩ := latchedOperandsWritten_iff.1 (hopr hb)
  exact latchedOperandsWritten_iff.2 ⟨i, hd, firstUnwritten_write k v hf⟩

/-- R135: a dropped write sets DROP only, beside BUSY. -/
theorem inv_dropWrite {s : State} (hs : s.Inv) (hb : s.status.busy = true) : s.dropWrite.Inv := by
  obtain ⟨hst, hrest⟩ := hs
  exact ⟨reachable_dropped hst hb, hrest⟩

/-- R111: a rejection leaves ERR and CAUSE beside a CMD that is no command. -/
theorem inv_raiseUnsupported {s : State} {v : Word} (hs : s.Inv) (hd : decode v = .unsupported) :
    (s.raiseUnsupported v).Inv := by
  obtain ⟨-, -, -, hres, -, -⟩ := hs
  exact ⟨reachable_rejected s.status, by simp, fun _ => hd, hres, by simp, by simp⟩

/-- R60: an issue latches the opcode of the word CMD holds, after its operands were checked. -/
theorem inv_accept {s : State} {v : Word} {i : Instr} (hs : s.Inv) (hd : decode v = .op i)
    (hf : firstUnwritten i s.opr = none) : (s.accept v).Inv := by
  obtain ⟨-, -, -, hres, -, -⟩ := hs
  have hop : decodeOpc (opcField v) = .op i := decodeOpc_opcField_of_decode hd
  exact ⟨reachable_accepted s.status, fun _ => ⟨eq_append_of_decode hd, decodeOpc_ne_unsupported_iff.2 ⟨i, hop⟩⟩, by simp,
    hres, by simp, fun _ => latchedOperandsWritten_iff.2 ⟨i, hop, hf⟩⟩

/-- Settles O51, event by event. -/
theorem stepKeepsTheInvariant : Obligations.StepKeepsTheInvariant := by
  intro s t hs h
  have htick : s.tick.Inv := inv_of_sameBlock (.refl s) hs
  cases stepEvent_of_step h with
  | completed i hc _ => exact inv_complete _ hs (busy_of_coreTurn hc)
  | reset _ => exact inv_of_status_atReset rfl rfl
  | oprWritten _ k v _ _ => exact inv_writeOpr k v htick
  | dropped v _ hb => exact inv_dropWrite htick hb
  | rejected v _ _ hd => exact inv_raiseUnsupported htick hd
  | issued v i _ _ hd hf => exact inv_accept htick hd hf
  | silent _ _ _ _ hsame => exact inv_of_sameBlock hsame hs

/-- R26, R29: under the invariant CMD is the latched command, so the completion's results are those DONE vouches for. -/
theorem resultsVouched_complete {s : State} {i : Instr} (hs : s.Inv) (hb : s.status.busy = true)
    (hd : decodeOpc s.latch.op = .op i) : (s.complete (execResults i s.latch.v)).ResultsVouched := by
  obtain ⟨-, hcmd, -⟩ := hs
  refine fun _ => ⟨i, ?_, rfl⟩
  rw [State.complete_cmd, (hcmd (.inl hb)).1, decode_append_zero, hd]

/-- Settles O52: a completion makes it true, a CMD write or a reset leaves DONE = 0, and every other event leaves DONE,
CMD, RES and the latch. -/
theorem doneVouchesForTheResults : Obligations.DoneVouchesForTheResults := by
  intro s t hs hv h
  cases stepEvent_of_step h with
  | completed i hc hd => exact resultsVouched_complete hs (busy_of_coreTurn hc) hd
  | reset _ => exact resultsVouched_of_not_done rfl
  | oprWritten _ _ _ _ _ => exact hv
  | dropped _ _ hb => exact resultsVouched_of_not_done (not_done_not_err_of_busy hs.1 hb).1
  | rejected _ _ _ _ => exact resultsVouched_of_not_done rfl
  | issued _ _ _ _ _ _ => exact resultsVouched_of_not_done rfl
  | silent _ _ _ _ hsame => exact resultsVouched_of_sameBlock hsame hv

/-- Settles O50. -/
theorem resetMeetsTheInvariant : Obligations.ResetMeetsTheInvariant :=
  ⟨inv_of_status_atReset rfl rfl, resultsVouched_of_not_done rfl⟩

end Sys2Proof.Claims
end

section
/-! SUPPORT. Which events write which part of the block (R23, R24, R28, R33). -/

namespace Sys2Proof.Claims

open Sys2Proof.Machine

/-- Settles O54: each event leaves what its row of the table of R33 says; the line the host stands at tells which
event it is. -/
theorem statusIsWrittenByItsEvents : Obligations.StatusIsWrittenByItsEvents := by
  intro s t h
  cases stepEvent_of_step h with
  | completed i hc _ => exact ⟨fun _ => rfl, fun hn => absurd hc (by simp [hn])⟩
  | reset hl => simp [hl.1, hl.2, Status.atReset]
  | oprWritten idx k v hl hn =>
    have h8 : idx ≠ 8#4 := fun e => nomatch (regName_cmd.2 e).symm.trans hn
    simp [hl.1, hl.2, h8]
  | dropped v hl hb => simp [hl.1, hl.2, hb, Status.dropped]
  | rejected v hl hb hd => simp [hl.1, hl.2, hb, hd, Status.rejected]
  | issued v i hl hb hd _ => simp [hl.1, hl.2, hb, hd, Status.accepted]
  | silent _ hc hr hw hsame =>
    obtain ⟨-, -, -, hst, -⟩ := hsame
    exact ⟨by simp [hc], fun _ => ⟨fun e => absurd e hr, fun v e => absurd e (hw v), fun _ _ => hst⟩⟩

/-- Settles O53: of the events that are no completion, a reset, a rejection and an issue alone touch RES, CMD or the
latch; each has BUSY = 0 before or after it, and of the three the reset alone touches RES. -/
theorem hostCannotTouchTheCommandInFlight : Obligations.HostCannotTouchTheCommandInFlight := by
  intro s t hc h
  cases stepEvent_of_step h with
  | completed i hct _ => exact absurd hct (by simp [hc])
  | reset hl => exact ⟨fun _ hb => absurd hb (by simp [Status.atReset]), fun hr => absurd hl.2 hr⟩
  | oprWritten _ _ _ _ _ => exact ⟨fun _ _ => ⟨rfl, rfl, rfl⟩, fun _ => rfl⟩
  | dropped _ _ _ => exact ⟨fun _ _ => ⟨rfl, rfl, rfl⟩, fun _ => rfl⟩
  | rejected _ _ hb _ => exact ⟨fun hb' => absurd hb' (by simp [hb]), fun _ => rfl⟩
  | issued _ _ _ hb _ _ => exact ⟨fun hb' => absurd hb' (by simp [hb]), fun _ => rfl⟩
  | silent _ _ _ _ hsame =>
    obtain ⟨-, hres, hcmd, -, hlatch⟩ := hsame
    exact ⟨fun _ _ => ⟨hres, hcmd, hlatch⟩, fun _ => hres⟩

/-- Settles O55: of the events a reset and a write to one of the indices 0 to 4 alone touch OPR. -/
theorem oprChangesOnlyByHostWrite : Obligations.OprChangesOnlyByHostWrite := by
  intro s t h hne
  cases stepEvent_of_step h with
  | reset hl => exact ⟨hl.1, .inl hl.2⟩
  | oprWritten idx k v hl hn => exact ⟨hl.1, .inr ⟨k, idx, v, regName_opr.1 hn, hl.2, by simp⟩⟩
  | completed _ _ _ | dropped _ _ _ | rejected _ _ _ _ | issued _ _ _ _ _ _ => exact absurd rfl hne
  | silent _ _ _ _ hsame => exact absurd hsame.1 hne

/-- Settles O56: of the events a reset, a rejection and an issue alone touch CMD. -/
theorem cmdHoldsTheLastProcessedWrite : Obligations.CmdHoldsTheLastProcessedWrite := by
  intro s t h hne
  cases stepEvent_of_step h with
  | reset hl => exact ⟨hl.1, .inl ⟨hl.2, rfl⟩⟩
  | rejected _ hl hb _ => exact ⟨hl.1, .inr ⟨hb, hl.2⟩⟩
  | issued _ _ hl hb _ _ => exact ⟨hl.1, .inr ⟨hb, hl.2⟩⟩
  | completed _ _ _ | oprWritten _ _ _ _ _ | dropped _ _ _ => exact absurd rfl hne
  | silent _ _ _ _ hsame =>
    obtain ⟨-, -, hcmd, -⟩ := hsame
    exact absurd hcmd hne

end Sys2Proof.Claims
end

section
/-! SUPPORT. The completion step: total, framed, and a function of the operands the command reads (R26, R27, R63). -/

namespace Sys2Proof.Claims

open Sys2Proof.Machine

/-- R27, R63: EXEC looks at no operand outside the command's row of the operand table, command by command. -/
theorem execResults_congr {i : Instr} {v w : OperandWords} (h : ∀ k ∈ operandsOf i, v.get k = w.get k) :
    execResults i v = execResults i w := by
  cases i <;> simp [operandsOf, OperandWords.get] at h <;> simp [execResults, h]

/-- Settles O35. -/
theorem resultsDependOnReadOperandsOnly : Obligations.ResultsDependOnReadOperandsOnly := by
  intro i s s' t t' hv ht ht'
  rw [exec_eq] at ht ht'
  cases ht
  cases ht'
  simp [execResults_congr hv]

/-- Settles O34: `exec` is the completion step with EXEC's results, and `State.complete` writes RES and STATUS alone. -/
theorem everyCommandCompletesInItsFrame : Obligations.EveryCommandCompletesInItsFrame := fun i s =>
  ⟨s.complete (execResults i s.latch.v), exec_eq i s, rfl, rfl, rfl, rfl, rfl, rfl, rfl, rfl⟩

/-- Settles O37: BUSY = 1 on the core's turn, so the invariant gives an assigned opcode in the latch. -/
theorem completionNeverStops : Obligations.CompletionNeverStops := by
  intro s hs hc
  obtain ⟨-, hcmd, -⟩ := hs
  obtain ⟨i, hd⟩ := decodeOpc_ne_unsupported_iff.1 (hcmd (.inl (busy_of_coreTurn hc))).2
  exact ⟨_, (step_core hc hd).trans (exec_eq i s)⟩

/-- The word of a command, placed in any state: its issue with the completion due at once (log 14). -/
theorem withFetchWord_encode (s : State) (i : Instr) : s.withFetchWord 256 (encode i).toNat =
    { s.accept (encode i) with timing := { s.timing with wait := 0 } } := by
  simp [State.withFetchWord, State.placeCommand, Nat.mod_eq_of_lt (encode i).isLt]

/-- Settles O36: the second clause is the first one in the state that `withFetchWord` places. -/
theorem stepRunsTheLatchedCommand : Obligations.StepRunsTheLatchedCommand := by
  refine ⟨fun s i hc hd => step_core hc hd, fun s i => ?_⟩
  rw [withFetchWord_encode]
  exact step_core (by simp [coreTurn]) (by simp)

end Sys2Proof.Claims
end

section
/-! SUPPORT. The issue of a command, host reads, and STATUS as a word (R25, R29, R36, R41, R60). -/

namespace Sys2Proof.Claims

open Sys2Proof.Machine

/-- A step at a write line is the register write, after the host has passed the line. -/
theorem step_of_write {s : State} {idx : BitVec 4} {v : Word} (h : HostAt s (.write idx v)) :
    step s = regWrite idx v s.tick := step_host h.1 h.2

theorem step_of_read_ok {s : State} {idx : BitVec 4} {w : Word} (h : HostAt s (.read idx))
    (hw : regRead idx s = .ok w) : step s = .next (s.tick.received idx w) := by
  have hw' : regRead idx s.tick = .ok w := hw
  rw [step_host h.1 h.2, hostAct, hw']

theorem step_of_read_error {s : State} {idx : BitVec 4} {f : Fault} (h : HostAt s (.read idx))
    (hf : regRead idx s = .error f) : step s = .fault f := by
  have hf' : regRead idx s.tick = .error f := hf
  rw [step_host h.1 h.2, hostAct, hf']

/-- R60: an idle write of a command's encoding to CMD is its issue. -/
theorem step_of_issue {s : State} {i : Instr} (h : HostAt s (.write 8#4 (encode i))) (hb : s.status.busy = false) :
    step s = issue i (encode i) s.tick := by
  rw [step_of_write h]
  simp [regWrite, regName_cmdIndex, commandWrite, hb]

/-- Settles O40: `issue` finds no unwritten operand, so the step is `State.accept`. -/
theorem validWordIsIssued : Obligations.ValidWordIsIssued := by
  intro s i h hb hw
  have hf : firstUnwritten i s.tick.opr = none := firstUnwritten_eq_none.2 hw
  have hstep : step s = .next (s.tick.accept (encode i)) := by rw [step_of_issue h hb, issue, hf]
  exact ⟨_, hstep, rfl, by simp, rfl, fun k => s.opr.get_words k, rfl, rfl, rfl, rfl⟩

/-- Settles O43. -/
theorem hostReadHasNoSideEffect : Obligations.HostReadHasNoSideEffect := fun s _ h =>
  ⟨fun _ hw => ⟨_, step_of_read_ok h hw, .refl s, rfl, rfl⟩, fun _ hf => step_of_read_error h hf⟩

/-- R29: STATUS with the widths of its fields kept, so that the library's rules for `++` apply field by field. -/
theorem status_word_eq_append (st : Status) : st.word =
    (0#244 ++ st.cause ++ 0#4 ++ BitVec.ofBool st.drop ++ BitVec.ofBool st.err ++ BitVec.ofBool st.done ++
      BitVec.ofBool st.busy : BitVec (244 + 4 + 4 + 1 + 1 + 1 + 1)) := rfl

/-- Settles O46: each bit and each slice falls into one field of the concatenation. -/
theorem statusWordLayout : Obligations.StatusWordLayout := by
  intro st
  simp (disch := decide) only [status_word_eq_append, BitVec.getLsbD_append, BitVec.extractLsb'_append_eq_of_le,
    BitVec.extractLsb'_append_eq_of_add_le]
  simp

/-- R29, R33: the six values STATUS takes: idle, in flight, done, in flight and done after a drop, rejected. -/
theorem reachable_cases {st : Status} (h : st.reachable) :
    st ∈ [⟨false, false, false, false, 0#4⟩, ⟨true, false, false, false, 0#4⟩, ⟨false, true, false, false, 0#4⟩,
      ⟨true, false, false, true, 0#4⟩, ⟨false, true, false, true, 0#4⟩, ⟨false, false, true, false, 1#4⟩] := by
  obtain ⟨busy, done, err, drop, cause⟩ := st
  have hc : cause = 0#4 ∨ cause = 1#4 := by
    obtain ⟨⟨-, -, -, hc⟩, -⟩ := h
    exact hc
  rcases hc with rfl | rfl <;> (revert busy done err drop; decide)

/-- Settles O47. -/
theorem statusReadsAsOneOfSixWords : Obligations.StatusReadsAsOneOfSixWords := by
  intro s hs
  have h := reachable_cases hs.1
  generalize s.status = st at h
  fin_cases h <;> decide

/-- Settles O49. -/
theorem resetState : Obligations.ResetState :=
  ⟨rfl, rfl, State.afterReset_opr_written 0, State.afterReset_res_written 0, rfl, rfl⟩

end Sys2Proof.Claims
end

section
/-! SUPPORT. No step lets unspecified contents through (R34, R36): states that agree in all but them stay so, operation by
operation, and the use of an unwritten register is a fault that names it. -/

namespace Sys2Proof.Claims

open Sys2Proof.Machine

section Agreement

variable {s s' : State}

theorem status_of_agree (h : s.agreeButResetData s') : s'.status = s.status := by
  obtain ⟨-, -, -, hst, -⟩ := h
  exact hst

theorem host_of_agree (h : s.agreeButResetData s') : s'.host = s.host := by
  obtain ⟨-, -, -, -, hhost, -⟩ := h
  exact hhost

/-- While a command is in flight the two states give it the same opcode and the same results (R27). -/
theorem command_of_agree (h : s.agreeButResetData s') (hb : s.status.busy = true) {i : Instr}
    (hd : decodeOpc s.latch.op = .op i) :
    decodeOpc s'.latch.op = .op i ∧ execResults i s'.latch.v = execResults i s.latch.v := by
  obtain ⟨-, -, -, -, -, -, -, hlatch⟩ := h
  obtain ⟨hop, hv⟩ := hlatch hb
  exact ⟨hop ▸ hd, execResults_congr (hv i hd)⟩

theorem agree_writeOpr (h : s.agreeButResetData s') (k : Fin 5) (v : Word) :
    (s.writeOpr k v).agreeButResetData (s'.writeOpr k v) := by
  obtain ⟨hopr, hrest⟩ := h
  refine ⟨fun j => ?_, hrest⟩
  by_cases e : j = k
  · subst e
    simp [Reg.agree]
  · simpa [OprFile.get_write_other _ _ e] using hopr j

theorem agree_tick (h : s.agreeButResetData s') : s.tick.agreeButResetData s'.tick := by
  obtain ⟨hopr, hres, hcmd, hst, hhost, htim, hrst, hlatch⟩ := h
  exact ⟨hopr, hres, hcmd, hst, by simp [hhost], by simp [htim], hrst, hlatch⟩

theorem agree_received (h : s.agreeButResetData s') (idx : BitVec 4) (w : Word) :
    (s.received idx w).agreeButResetData (s'.received idx w) := by
  obtain ⟨hopr, hres, hcmd, hst, hhost, htim, hrst, hlatch⟩ := h
  exact ⟨hopr, hres, hcmd, hst, by simp [hhost], htim, hrst, hlatch⟩

theorem agree_jump (h : s.agreeButResetData s') (target : Nat) :
    (s.jump target).agreeButResetData (s'.jump target) := by
  obtain ⟨hopr, hres, hcmd, hst, hhost, htim, hrst, hlatch⟩ := h
  exact ⟨hopr, hres, hcmd, hst, by simp [hhost], htim, hrst, hlatch⟩

theorem agree_dropWrite (h : s.agreeButResetData s') : s.dropWrite.agreeButResetData s'.dropWrite := by
  obtain ⟨hopr, hres, hcmd, hst, hhost, htim, hrst, hlatch⟩ := h
  exact ⟨hopr, hres, hcmd, by simp [hst], hhost, htim, hrst, hlatch⟩

/-- A rejection leaves BUSY = 0, so the latch may differ. -/
theorem agree_raiseUnsupported (h : s.agreeButResetData s') (v : Word) :
    (s.raiseUnsupported v).agreeButResetData (s'.raiseUnsupported v) := by
  obtain ⟨hopr, hres, -, -, hhost, htim, hrst, -⟩ := h
  exact ⟨hopr, hres, rfl, rfl, hhost, htim, hrst, fun hb => absurd hb (by simp)⟩

/-- A reset takes its free values from the count of resets, on which the two states agree. -/
theorem agree_platformReset (h : s.agreeButResetData s') : s.platformReset.agreeButResetData s'.platformReset := by
  obtain ⟨-, -, -, -, hhost, htim, hrst, -⟩ := h
  have he : s'.platformReset = s.platformReset := by simp [State.platformReset, hhost, htim, hrst]
  rw [he]
  simp [State.agreeButResetData, Reg.agree]

/-- R36: an issue latches no unwritten word that the command reads. -/
theorem agree_accept (h : s.agreeButResetData s') (hdelay : ∀ op, s'.nextDelay op = s.nextDelay op) {v : Word}
    {i : Instr} (hd : decode v = .op i) (hf : firstUnwritten i s.opr = none) :
    (s.accept v).agreeButResetData (s'.accept v) := by
  obtain ⟨hopr, hres, -, -, hhost, htim, hrst, -⟩ := h
  refine ⟨hopr, hres, rfl, rfl, hhost, by simp [htim, hdelay], hrst, fun _ => ⟨rfl, fun j hj k hk => ?_⟩⟩
  obtain rfl : i = j := by simpa [decodeOpc_opcField_of_decode hd] using hj
  simpa using (hopr k).2 (firstUnwritten_eq_none.1 hf k hk)

/-- A completion with the same results leaves BUSY = 0, so the latch may differ. -/
theorem agree_complete (h : s.agreeButResetData s') (r : Results) :
    (s.complete r).agreeButResetData (s'.complete r) := by
  obtain ⟨hopr, -, hcmd, hst, hhost, htim, hrst, -⟩ := h
  exact ⟨hopr, fun _ => ⟨rfl, fun _ => rfl⟩, hcmd, by simp [hst], hhost, htim, hrst, fun hb => absurd hb (by simp)⟩

theorem coreTurn_of_agree (h : s.agreeButResetData s') : coreTurn s' = coreTurn s := by
  obtain ⟨-, -, -, hst, hhost, htim, -, -⟩ := h
  simp [coreTurn, hostFinished, hst, hhost, htim]

theorem firstUnwritten_of_agree (h : s.agreeButResetData s') (i : Instr) :
    firstUnwritten i s'.opr = firstUnwritten i s.opr := by
  have hw (k : Fin 5) : (s'.opr.get k).written = (s.opr.get k).written := (h.1 k).1
  simp [firstUnwritten, hw]

theorem regWritten_of_agree (h : s.agreeButResetData s') (idx : BitVec 4) :
    regWritten idx s' = regWritten idx s := by
  unfold regWritten
  cases regName idx with
  | opr k => exact (h.1 k).1
  | res k => exact (h.2.1 k).1
  | cmd | status | reserved => rfl

theorem regWord_of_agree (h : s.agreeButResetData s') {idx : BitVec 4} (hw : regWritten idx s = true) :
    regWord idx s' = regWord idx s := by
  obtain ⟨hopr, hres, hcmd, hst, -, -, -, -⟩ := h
  unfold regWritten at hw
  unfold regWord
  cases hn : regName idx with
  | opr k => exact (hopr k).2 (by simpa [hn] using hw)
  | res k => exact (hres k).2 (by simpa [hn] using hw)
  | cmd => exact hcmd
  | status => exact congrArg Status.word hst
  | reserved => rfl

/-- R36, R41: a read answers only with a word on which the two states agree. -/
theorem regRead_of_agree (h : s.agreeButResetData s') {idx : BitVec 4} {w : Word} (hr : regRead idx s = .ok w) :
    regRead idx s' = .ok w := by
  rcases regRead_cases idx s with ⟨hw, e⟩ | ⟨-, e⟩
  · rw [← hr, e, regRead, regWritten_of_agree h, hw, if_pos rfl, regWord_of_agree h hw]
  · rw [e] at hr
    cases hr

theorem regWrite_of_agree {t : State} (h : s.agreeButResetData s') (hdelay : ∀ op, s'.nextDelay op = s.nextDelay op)
    {idx : BitVec 4} {v : Word} (hw : regWrite idx v s = .next t) :
    ∃ t', regWrite idx v s' = .next t' ∧ t.agreeButResetData t' := by
  have hst := status_of_agree h
  rcases regWrite_next hw with ⟨k, hn, rfl⟩ | ⟨hn, hb, rfl⟩ | ⟨hn, hb, hd, rfl⟩ | ⟨hn, hb, i, hd, hf, rfl⟩ |
    ⟨hopr, hcmd, rfl⟩
  · exact ⟨_, by simp only [regWrite, hn], agree_writeOpr h k v⟩
  · exact ⟨_, by simp [regWrite, hn, commandWrite, hst, hb], agree_dropWrite h⟩
  · exact ⟨_, by simp [regWrite, hn, commandWrite, hst, hb, hd], agree_raiseUnsupported h v⟩
  · exact ⟨_, by simp [regWrite, hn, commandWrite, hst, hb, hd, issue, firstUnwritten_of_agree h, hf],
      agree_accept h hdelay hd hf⟩
  · rcases regWrite_cases idx v s' with ⟨k, hn, -⟩ | ⟨hn, -⟩ | ⟨-, -, e⟩
    · exact absurd hn (hopr k)
    · exact absurd hn hcmd
    · exact ⟨_, e, h⟩

theorem hostAct_of_agree {t : State} (h : s.agreeButResetData s') (hdelay : ∀ op, s'.nextDelay op = s.nextDelay op)
    {l : HostLine} (hact : hostAct l s = .next t) : ∃ t', hostAct l s' = .next t' ∧ t.agreeButResetData t' := by
  have hhost := host_of_agree h
  rcases hostAct_next hact with ⟨idx, w, rfl, hr, rfl⟩ | ⟨idx, v, rfl, hw⟩ | ⟨f, target, w, rfl, hseen, rfl⟩ | ⟨rfl, rfl⟩
  · exact ⟨_, by simp only [hostAct, regRead_of_agree h hr], agree_received h idx w⟩
  · exact regWrite_of_agree h hdelay hw
  · refine ⟨if fieldNonzero f w then s'.jump target else s', by simp only [hostAct, hhost, hseen], ?_⟩
    split
    · exact agree_jump h target
    · exact h
  · exact ⟨_, rfl, agree_platformReset h⟩

/-- R36, "a claim can then never rest on reset contents": a step is matched by a step from every agreeing state. -/
theorem step_of_agree {t : State} (h : s.agreeButResetData s') (hdelay : ∀ op, s'.nextDelay op = s.nextDelay op)
    (hstep : step s = .next t) : ∃ t', step s' = .next t' ∧ t.agreeButResetData t' := by
  have hturn := coreTurn_of_agree h
  have hhost := host_of_agree h
  rcases step_next hstep with ⟨hc, i, hd, rfl⟩ | ⟨hc, l, hl, hact⟩ | ⟨hc, hl, rfl⟩
  · obtain ⟨hd', hres⟩ := command_of_agree h (busy_of_coreTurn hc) hd
    refine ⟨_, (step_core (hturn.trans hc) hd').trans (exec_eq i s'), ?_⟩
    rw [hres]
    exact agree_complete h _
  · rw [step_host (hturn.trans hc) (hhost ▸ hl)]
    exact hostAct_of_agree (agree_tick h) hdelay hact
  · exact ⟨s', by simp [step, hturn, hc, hostMove, hhost, hl], h⟩

/-- R36, R60, R133: an issue with an unwritten operand faults and names such an operand. -/
theorem step_of_issue_unwritten {i : Instr} (h : HostAt s (.write 8#4 (encode i))) (hb : s.status.busy = false)
    (hw : ∃ k ∈ operandsOf i, (s.opr.get k).written = false) :
    ∃ k ∈ operandsOf i, (s.opr.get k).written = false ∧ step s = .fault (.unwrittenOperand i k) := by
  cases hf : firstUnwritten i s.tick.opr with
  | none =>
    obtain ⟨k, hk, hu⟩ := hw
    exact absurd (firstUnwritten_eq_none.1 hf k hk) (by simp [hu])
  | some k =>
    obtain ⟨hk, hu⟩ := firstUnwritten_eq_some hf
    exact ⟨k, hk, hu, by rw [step_of_issue h hb, issue, hf]⟩

/-- R36, R41: a read of an unwritten register faults. -/
theorem step_of_read_unwritten {idx : BitVec 4} (h : HostAt s (.read idx)) (hw : regWritten idx s = false) :
    step s = .fault (.unwrittenRead idx) :=
  step_of_read_error h (by simp [regRead, hw])

end Agreement

/-- Settles O41. -/
theorem resetDataIsNamedAndDoesNotLeak : Obligations.ResetDataIsNamedAndDoesNotLeak := by
  refine ⟨fun s i => step_of_issue_unwritten, fun s idx h => ⟨fun k hk hw => ?_, fun k hk hw => ?_⟩,
    fun s s' t => step_of_agree⟩
  · exact step_of_read_unwritten h (by simp [regWritten, regName_opr.2 hk, hw])
  · exact step_of_read_unwritten h (by simp [regWritten, regName_res.2 hk, hw])

end Sys2Proof.Claims
end

section
/-! SUPPORT. A command in flight completes, whatever the host does meanwhile short of a reset (R26, R136, R138). -/

namespace Sys2Proof.Claims

open Sys2Proof.Machine

theorem core_run_succ {s t : State} (n : Nat) (h : step s = .next t) :
    Host.Core.run core (n + 1) s = Host.Core.run core n t := by
  have h' : core.step s = .next t := h
  simp only [Host.Core.run, h']

/-- R143: a quiescent block with no host line left stays as it is, however long it runs (log 9). -/
theorem core_run_of_quiescent {s : State} (hb : s.status.busy = false) (hf : hostFinished s = true) (n : Nat) :
    Host.Core.run core n s = .next s := by
  have hl : s.host.script[s.host.line]? = none := by simpa [hostFinished] using hf
  have hstep : step s = .next s := by simp [step, coreTurn, hb, hostMove, hl]
  induction n with
  | zero => rfl
  | succ n ih => rw [core_run_succ n hstep, ih]

/-- What the host's program must be for no line of it to reset the block or to stop the machine while a command is in
flight: no reset, reads of written registers only, and no branch before an `RD STATUS` (R36, R130; log 11). -/
def Undisturbed (s : State) : Prop :=
  HostLine.platformReset ∉ s.host.script ∧
  (∀ idx, HostLine.read idx ∈ s.host.script → regWritten idx s = true) ∧
  (s.host.statusSeen ≠ none ∨ ∀ f target, HostLine.bnz f target ∉ s.host.script)

/-- `t` has the command of `s` in flight, with as many host lines still to pass before its completion. -/
def SameFlight (s t : State) : Prop :=
  t.status.busy = true ∧ t.latch = s.latch ∧ t.cmd = s.cmd ∧ t.timing.wait = s.timing.wait

theorem regWritten_writeOpr {s : State} (k : Fin 5) (v : Word) {idx : BitVec 4} (h : regWritten idx s = true) :
    regWritten idx (s.writeOpr k v) = true := by
  unfold regWritten at h ⊢
  cases hn : regName idx with
  | opr j => exact OprFile.written_write s.opr j k v (by simpa [hn] using h)
  | res j => simpa [hn] using h
  | cmd | status | reserved => rfl

theorem undisturbed_received {s : State} (h : Undisturbed s) (idx : BitVec 4) (w : Word) :
    Undisturbed (s.received idx w) := by
  obtain ⟨hreset, hread, hbnz⟩ := h
  refine ⟨hreset, hread, ?_⟩
  rcases hbnz with hseen | hbnz
  · refine .inl ?_
    rw [State.received_host]
    split
    · exact nofun
    · exact hseen
  · exact .inr hbnz

/-- R42, R43, R138: a host write during a command in flight leaves it in flight. -/
theorem regWrite_in_flight {s : State} (hb : s.status.busy = true) (h : Undisturbed s) (idx : BitVec 4) (v : Word) :
    ∃ t, regWrite idx v s = .next t ∧ SameFlight s t ∧ Undisturbed t := by
  rcases regWrite_cases idx v s with ⟨k, -, e⟩ | ⟨-, e⟩ | ⟨-, -, e⟩
  · obtain ⟨hreset, hread, hbnz⟩ := h
    exact ⟨_, e, ⟨hb, rfl, rfl, rfl⟩, hreset, fun idx hi => regWritten_writeOpr k v (hread idx hi), hbnz⟩
  · exact ⟨s.dropWrite, by rw [e, commandWrite, if_pos hb], ⟨hb, rfl, rfl, rfl⟩, h⟩
  · exact ⟨s, e, ⟨hb, rfl, rfl, rfl⟩, h⟩

/-- R137, R138: no line of such a program stops the machine or touches the command in flight. -/
theorem hostAct_in_flight {s : State} {l : HostLine} (hb : s.status.busy = true) (h : Undisturbed s)
    (hl : l ∈ s.host.script) : ∃ t, hostAct l s = .next t ∧ SameFlight s t ∧ Undisturbed t := by
  have ⟨hreset, hread, hbnz⟩ := h
  cases l with
  | read idx =>
    exact ⟨s.received idx (regWord idx s), by simp [hostAct, regRead, hread idx hl], ⟨hb, rfl, rfl, rfl⟩,
      undisturbed_received h idx _⟩
  | write idx v => exact regWrite_in_flight hb h idx v
  | bnz f target =>
    rcases hbnz with hseen | hno
    · obtain ⟨w, hw⟩ := Option.ne_none_iff_exists'.1 hseen
      refine ⟨if fieldNonzero f w then s.jump target else s, by simp only [hostAct, hw], ?_⟩
      split
      · exact ⟨⟨hb, rfl, rfl, rfl⟩, h⟩
      · exact ⟨⟨hb, rfl, rfl, rfl⟩, h⟩
    · exact absurd hl (hno f target)
  | platformReset => exact absurd hl hreset

/-- R26, R48: while the completion does not come, the step is a host line, and one line less is to be waited for. -/
theorem step_in_flight {s : State} (hb : s.status.busy = true) (hc : coreTurn s = false) (h : Undisturbed s) :
    ∃ t, step s = .next t ∧ SameFlight s.tick t ∧ Undisturbed t := by
  obtain ⟨-, hfin⟩ : s.timing.wait ≠ 0 ∧ hostFinished s = false := by simpa [coreTurn, hb] using hc
  have hlt : s.host.line < s.host.script.length := by simpa [hostFinished] using hfin
  have hl : s.host.script[s.host.line]? = some s.host.script[s.host.line] := List.getElem?_eq_getElem hlt
  have htick : Undisturbed s.tick := h
  obtain ⟨t, hact, hflight, hund⟩ := hostAct_in_flight (s := s.tick) hb htick (List.getElem_mem hlt)
  exact ⟨t, (step_host hc hl).trans hact, hflight, hund⟩

/-- R26, R143: on the core's turn the command completes at once; either no host line was left to wait for, or the host has
none left and the block then stays as the completion leaves it. -/
theorem core_run_of_coreTurn {s : State} {i : Instr} (hc : coreTurn s = true) (hd : decodeOpc s.latch.op = .op i) :
    Host.Core.run core (s.timing.wait + 1) s = .next (s.complete (execResults i s.latch.v)) := by
  rw [core_run_succ _ ((step_core hc hd).trans (exec_eq i s))]
  have hturn : s.timing.wait = 0 ∨ hostFinished s = true := by
    simpa [coreTurn, busy_of_coreTurn hc] using hc
  rcases hturn with hw | hf
  · rw [hw]
    rfl
  · exact core_run_of_quiescent (s := s.complete _) rfl hf _

/-- By induction on the host lines to wait for: each passes and leaves the command in flight, then it completes. -/
theorem core_run_completes (n : Nat) {s : State} {i : Instr} (hn : s.timing.wait = n) (hb : s.status.busy = true)
    (hd : decodeOpc s.latch.op = .op i) (h : Undisturbed s) :
    ∃ u : State, Host.Core.run core (n + 1) s = .next (u.complete (execResults i s.latch.v)) ∧
      u.latch = s.latch ∧ u.cmd = s.cmd := by
  induction n generalizing s with
  | zero => exact ⟨s, hn ▸ core_run_of_coreTurn (by simp [coreTurn, hb, hn]) hd, rfl, rfl⟩
  | succ n ih =>
    cases hc : coreTurn s with
    | true => exact ⟨s, hn ▸ core_run_of_coreTurn hc hd, rfl, rfl⟩
    | false =>
      obtain ⟨t, hstep, ⟨hbt, hlatch, hcmd, hwait⟩, hund⟩ := step_in_flight hb hc h
      rw [State.tick_latch] at hlatch
      rw [State.tick_cmd] at hcmd
      rw [core_run_succ _ hstep, ← hlatch, ← hcmd]
      exact ih (by simp [hwait, hn]) hbt (hlatch ▸ hd) hund

/-- Settles O58: the state in which the command completes still holds its latch and CMD. -/
theorem commandInFlightCompletes : Obligations.CommandInFlightCompletes := by
  intro s i hb hd hreset hread hbnz
  obtain ⟨u, hrun, hlatch, hcmd⟩ := core_run_completes _ rfl hb hd ⟨hreset, hread, hbnz⟩
  exact ⟨_, hrun, rfl, rfl, rfl, hlatch, hcmd⟩

end Sys2Proof.Claims
end

section
/-! SUPPORT. The big-endian image of a word and the word of an image, byte by byte (R44). -/

namespace Sys2Proof

@[simp] theorem length_imageOfWord (w : Word) : (imageOfWord w).length = 32 := by
  simp [imageOfWord]

/-- R44: byte k of the image, counted from the most significant one. -/
@[simp] theorem getElem_imageOfWord (w : Word) (k : Nat) (h : k < (imageOfWord w).length) :
    (imageOfWord w)[k] = w.extractLsb' (8 * (31 - k)) 8 := by
  simp [imageOfWord]

/-- R44: every bit of a word stands in one byte of its image, so the image determines the word. -/
theorem imageOfWord_injective : Function.Injective imageOfWord := by
  intro v w h
  refine BitVec.eq_of_getLsbD_eq fun i hi => ?_
  have hk : 31 - i / 8 < 32 := by omega
  have hbyte : v.extractLsb' (8 * (31 - (31 - i / 8))) 8 = w.extractLsb' (8 * (31 - (31 - i / 8))) 8 := by
    simpa [hk] using congrArg (·[31 - i / 8]?) h
  have hpos : 8 * (31 - (31 - i / 8)) + i % 8 = i := by omega
  have hlt : i % 8 < 8 := by omega
  simpa [hpos, hlt] using congrArg (·.getLsbD (i % 8)) hbyte

/-- Reading one more byte of an image moves the bytes read so far up by one byte. -/
def shiftInByte (acc : Word) (b : BitVec 8) : Word := (acc <<< 8) ||| b.setWidth 256

theorem wordOfImage_eq_some_iff {bytes : List (BitVec 8)} {w : Word} :
    wordOfImage bytes = some w ↔ bytes.length = 32 ∧ bytes.foldl shiftInByte 0#256 = w := by
  have h : wordOfImage bytes = if bytes.length = 32 then some (bytes.foldl shiftInByte 0#256) else none := rfl
  simp [h]

theorem extractLsb'_shiftInByte_zero (acc : Word) (b : BitVec 8) : (shiftInByte acc b).extractLsb' 0 8 = b := by
  ext i hi
  have h : i < 256 := by omega
  simp [shiftInByte, hi, h]

theorem extractLsb'_shiftInByte_succ (acc : Word) (b : BitVec 8) {k : Nat} (hk : k < 31) :
    (shiftInByte acc b).extractLsb' (8 * (k + 1)) 8 = acc.extractLsb' (8 * k) 8 := by
  ext i hi
  have hlt : 8 * (k + 1) + i < 256 := by omega
  have hge : ¬ 8 * (k + 1) + i < 8 := by omega
  have hsub : 8 * (k + 1) + i - 8 = 8 * k + i := by omega
  have hb : b.getLsbD (8 * (k + 1) + i) = false := b.getLsbD_of_ge _ (by omega)
  have hacc : acc.getLsbD (8 * k + i) = acc[8 * k + i] := BitVec.getLsbD_eq_getElem (by omega)
  simp [shiftInByte, hlt, hge, hsub, hb, hacc]

/-- By induction on the bytes read: the last one read is the lowest, the ones before it stand one byte higher. -/
theorem extractLsb'_foldl_shiftInByte (rev : List (BitVec 8)) (k : Nat) (hk : k < rev.length) (h32 : k < 32) :
    (rev.reverse.foldl shiftInByte 0#256).extractLsb' (8 * k) 8 = rev[k] := by
  induction rev generalizing k with
  | nil => simp at hk
  | cons b rev ih =>
    rw [List.reverse_cons, List.foldl_concat]
    cases k with
    | zero => exact extractLsb'_shiftInByte_zero _ b
    | succ k =>
      rw [extractLsb'_shiftInByte_succ _ b (by omega)]
      exact ih k (by simpa using hk) (by omega)

/-- R44, R45: a list of bytes that stands for a word is that word's image. -/
theorem imageOfWord_of_wordOfImage {bytes : List (BitVec 8)} {w : Word} (h : wordOfImage bytes = some w) :
    imageOfWord w = bytes := by
  obtain ⟨hlen, rfl⟩ := wordOfImage_eq_some_iff.1 h
  refine List.ext_getElem (by simp [hlen]) fun k hk hk' => ?_
  have hbyte := extractLsb'_foldl_shiftInByte bytes.reverse (31 - k) (by rw [List.length_reverse]; omega) (by omega)
  have hpos : bytes.length - 1 - (31 - k) = k := by omega
  simpa [hpos] using hbyte

/-- R44: an image has a word, whose image it then is, and no other word has that image. -/
theorem wordOfImage_imageOfWord (w : Word) : wordOfImage (imageOfWord w) = some w := by
  have h : wordOfImage (imageOfWord w) = some ((imageOfWord w).foldl shiftInByte 0#256) :=
    wordOfImage_eq_some_iff.2 ⟨length_imageOfWord w, rfl⟩
  rwa [imageOfWord_injective (imageOfWord_of_wordOfImage h)] at h

end Sys2Proof

namespace Sys2Proof.Claims

/-- Settles O5. -/
theorem byteImageRoundTrip : Obligations.ByteImageRoundTrip :=
  ⟨fun w => ⟨wordOfImage_imageOfWord w, by simp⟩, fun _ _ => imageOfWord_of_wordOfImage⟩

end Sys2Proof.Claims
end

section
/-! SUPPORT. What a host access does at each index of the register map (R40, R41, R43). -/

namespace Sys2Proof.Machine

theorem regName_reserved {idx : BitVec 4} : regName idx = .reserved ↔ 10 ≤ idx.toNat := by
  revert idx; decide

theorem regRead_opr {idx : BitVec 4} {k : Fin 5} (h : regName idx = .opr k) (s : State) : regRead idx s =
    if (s.opr.get k).written then .ok (s.opr.get k).value else .error (.unwrittenRead idx) := by
  simp [regRead, regWritten, regWord, h]

theorem regRead_res {idx : BitVec 4} {k : Fin 3} (h : regName idx = .res k) (s : State) : regRead idx s =
    if (s.res.get k).written then .ok (s.res.get k).value else .error (.unwrittenRead idx) := by
  simp [regRead, regWritten, regWord, h]

theorem regRead_cmd (s : State) : regRead 8#4 s = .ok s.cmd := rfl

theorem regRead_status (s : State) : regRead 9#4 s = .ok s.status.word := rfl

theorem regRead_reserved {idx : BitVec 4} (h : regName idx = .reserved) (s : State) : regRead idx s = .ok 0#256 := by
  simp [regRead, regWritten, regWord, h]

/-- R43: such an index names neither an operand register nor CMD, the only ones a host write touches. -/
theorem regWrite_of_readOnly {idx : BitVec 4} (h5 : 5 ≤ idx.toNat) (h8 : idx ≠ 8#4) (v : Word) (s : State) :
    regWrite idx v s = .next s := by
  rcases regWrite_cases idx v s with ⟨k, hn, -⟩ | ⟨hn, -⟩ | ⟨-, -, e⟩
  · have hk : idx.toNat = k.val := regName_opr.1 hn
    omega
  · exact absurd (regName_cmd.1 hn) h8
  · exact e

end Sys2Proof.Machine

namespace Sys2Proof.Claims

open Sys2Proof.Machine

/-- Settles O42, index range by index range. -/
theorem regReadByIndex : Obligations.RegReadByIndex := fun s =>
  ⟨fun _ _ hk => regRead_opr (regName_opr.2 hk) s, fun _ _ hk => regRead_res (regName_res.2 hk) s, regRead_cmd s,
    regRead_status s, fun _ h => regRead_reserved (regName_reserved.2 h) s⟩

/-- Settles O45. -/
theorem readOnlyWritesAreIgnored : Obligations.ReadOnlyWritesAreIgnored := fun s _ v h h5 h8 =>
  (step_of_write h).trans (regWrite_of_readOnly h5 h8 v s.tick)

end Sys2Proof.Claims
end

section
/-! SUPPORT. The decoder from both sides (R57, R59, R61, R62): the one word of each command, and the words that have none,
by arithmetic on the word. -/

namespace Sys2Proof

/-- R59: each assigned opcode is in one row of the opcode map, the row of its command. -/
theorem decodeOpc_eq_op_iff {o : BitVec 8} {i : Instr} : decodeOpc o = .op i ↔ o = i.opc := by
  refine ⟨fun h => ?_, fun h => h ▸ decodeOpc_opc i⟩
  unfold decodeOpc at h
  split at h <;> cases h <;> rfl

/-- R57, R59: RSVD = 0 fixes the upper bits of a decoded word and the opcode map the lower ones. -/
theorem decode_eq_op_iff {v : Word} {i : Instr} : decode v = .op i ↔ v = encode i := by
  refine ⟨fun h => ?_, fun h => h ▸ decode_encode i⟩
  have hopc : opcField v = i.opc := decodeOpc_eq_op_iff.1 (decodeOpc_opcField_of_decode h)
  rw [eq_append_of_decode h, hopc, encode]

theorem decodeOpc_eq_unsupported_iff {o : BitVec 8} :
    decodeOpc o = .unsupported ↔ o.toNat = 0 ∨ 0x0D ≤ o.toNat := by
  revert o; decide

theorem toNat_opcField (v : Word) : (opcField v).toNat = v.toNat % 2 ^ 8 := by
  simp [opcField]

theorem rsvdField_eq_zero_iff {v : Word} : rsvdField v = 0#248 ↔ v.toNat / 2 ^ 8 = 0 := by
  have hlt := v.isLt
  rw [← BitVec.toNat_inj, rsvdField, BitVec.extractLsb'_toNat, Nat.shiftRight_eq_div_pow,
    Nat.mod_eq_of_lt (by omega), BitVec.toNat_ofNat, Nat.zero_mod]

/-- R62: the illegal words, those the decoder rejects for their reserved bits or for their opcode. -/
theorem decode_eq_unsupported_iff {v : Word} : decode v = .unsupported ↔
    v.toNat / 2 ^ 8 ≠ 0 ∨ v.toNat % 2 ^ 8 = 0 ∨ 0x0D ≤ v.toNat % 2 ^ 8 := by
  rw [← toNat_opcField, ← decodeOpc_eq_unsupported_iff, Ne, ← rsvdField_eq_zero_iff]
  unfold decode
  split <;> simp_all

theorem commandWordValid_eq_false_iff {v : Word} : commandWordValid v = false ↔ decode v = .unsupported := by
  rw [decode_eq_unsupported_iff, ← Bool.not_eq_true]
  simp only [commandWordValid, Bool.and_eq_true, decide_eq_true_eq]
  omega

/-- R61: the decoder has two outcomes, so a word that is not rejected is a command. -/
theorem commandWordValid_eq_true_iff {v : Word} : commandWordValid v = true ↔ ∃ i, decode v = .op i := by
  rw [← Bool.not_eq_false, commandWordValid_eq_false_iff]
  cases decode v <;> simp

end Sys2Proof

namespace Sys2Proof.Claims

open Sys2Proof.Machine

/-- Settles O3. -/
theorem decodeAndEncodeAgree : Obligations.DecodeAndEncodeAgree := fun _ _ => decode_eq_op_iff

/-- Settles O4. -/
theorem validWordsAreTheDecodedOnes : Obligations.ValidWordsAreTheDecodedOnes := fun _ =>
  ⟨commandWordValid_eq_true_iff, commandWordValid_eq_false_iff⟩

/-- Settles O2: each written-out word is the encoding of its command. -/
theorem opcodeMapDecodes : Obligations.OpcodeMapDecodes :=
  ⟨decode_encode .fadd, decode_encode .fsub, decode_encode .fmul, decode_encode .addmod, decode_encode .submod,
    decode_encode .mulmod, decode_encode .finv, decode_encode .oncurve, decode_encode .oncurvek1, decode_encode .tojac,
    decode_encode .toaff, decode_encode .jadd, fun _ => decodeOpc_eq_unsupported_iff.2⟩

/-- Settles O39: the decoder rejects every such word, and the idle CMD write of a rejected word is `raiseUnsupported`. -/
theorem unsupportedWordIsRejected : Obligations.UnsupportedWordIsRejected := by
  intro s v h hb hv
  have hd : decode v = .unsupported := decode_eq_unsupported_iff.2 hv
  have hwrite : regWrite 8#4 v s.tick = .next (s.tick.raiseUnsupported v) := by
    simp [regWrite, regName_cmdIndex, commandWrite, hb, hd]
  exact (step_of_write h).trans hwrite

end Sys2Proof.Claims
end

section
/-! SUPPORT. The host's branch on the last STATUS word read (R29, R65). -/

namespace Sys2Proof.Claims

open Sys2Proof.Machine

/-- R29: what BNZ tests of a STATUS word is the field the word was made from. -/
theorem fieldNonzero_word (f : StatusField) (st : Status) : fieldNonzero f st.word = statusField f st := by
  obtain ⟨hbusy, hdone, herr, hdrop, hcause, -⟩ := statusWordLayout st
  cases f with
  | busy => exact hbusy
  | done => exact hdone
  | err => exact herr
  | drop => exact hdrop
  | cause => simp [fieldNonzero, statusField, hcause, bne, beq_eq_decide]

theorem step_of_bnz {s : State} {f : StatusField} {target : Nat} {w : Word} (h : HostAt s (.bnz f target))
    (hw : s.host.statusSeen = some w) :
    step s = .next (if fieldNonzero f w then s.tick.jump target else s.tick) := by
  rw [step_host h.1 h.2]
  simp [hostAct, hw]

/-- Settles O59, branch taken or not. -/
theorem branchFollowsTheLastStatusRead : Obligations.BranchFollowsTheLastStatusRead := by
  intro s st f target h hw
  refine ⟨_, step_of_bnz h hw, ?_⟩
  rw [fieldNonzero_word]
  cases statusField f st <;> exact ⟨.refl s, rfl⟩

end Sys2Proof.Claims
end

section
/-! SUPPORT. A run of a CALL script (R66): its operand writes, its issue, its WAIT and its three reads, part by part. -/

namespace Sys2Proof.Machine

@[simp] theorem regName_oprIndex (k : Fin 5) : regName (oprIndex k) = .opr k := by
  revert k; decide

@[simp] theorem regName_resIndex (k : Fin 3) : regName (resIndex k) = .res k := by
  revert k; decide

theorem nodup_operandsOf (i : Instr) : (operandsOf i).Nodup := by
  cases i <;> decide

theorem regWrite_oprIndex (k : Fin 5) (v : Word) (s : State) : regWrite (oprIndex k) v s = .next (s.writeOpr k v) := by
  simp [regWrite]

/-- R26, R36: a completion writes all three result registers. -/
theorem State.complete_res_written (s : State) (r : Results) (k : Fin 3) :
    ((s.complete r).res.get k).written = true := by
  match k with
  | 0 | 1 | 2 => rfl

/-- What R66's expansion of a CALL has after its operand writes, `n` in number: ISSUE, WAIT at its own line number, and
the reads of the results. -/
def callTail (i : Instr) (n : Nat) : List HostLine :=
  [.write cmdIndex (encode i)] ++ waitLines (n + 1) ++ [.read (resIndex 0), .read (resIndex 1), .read (resIndex 2)]

/-- The lines of R66's expansion of CALL. -/
def callLines (i : Instr) (vs : List Word) : List HostLine :=
  operandLines (operandsOf i) vs ++ callTail i vs.length

/-- R66: a script of one CALL assembles when it gives a value to each operand the command reads, and to no more. -/
theorem assemble_call_eq_some_iff {i : Instr} {vs : List Word} {lines : List HostLine} :
    assemble [.call i vs] = some lines ↔ vs.length = (operandsOf i).length ∧ lines = callLines i vs := by
  by_cases h : vs.length = (operandsOf i).length
  · simp [assemble, assembleFrom, ScriptLine.expand, callLines, callTail, h, eq_comm]
  · simp [assemble, assembleFrom, ScriptLine.expand, h]

theorem length_callLines {i : Instr} {vs : List Word} (h : vs.length = (operandsOf i).length) :
    (callLines i vs).length = vs.length + 6 := by
  simp [callLines, callTail, operandLines, waitLines, h]

theorem getElem?_callLines {i : Instr} {vs : List Word} (h : vs.length = (operandsOf i).length) (k : Nat) :
    (callLines i vs)[vs.length + k]? = (callTail i vs.length)[k]? := by
  have hsize : (operandLines (operandsOf i) vs).length = vs.length := by simp [operandLines, h]
  rw [callLines, List.getElem?_append_right (by omega), hsize, Nat.add_sub_cancel_left]

end Sys2Proof.Machine

namespace Sys2Proof.Claims

open Sys2Proof.Machine

/-- One step of the machine that answers a next state, as a relation. -/
def StepsTo (s t : State) : Prop := step s = .next t

/-- Some number of steps leads from the first state to the second without a stop. -/
abbrev Reaches : State → State → Prop := Relation.ReflTransGen StepsTo

theorem exists_run_of_reaches {s t : State} (h : Reaches s t) : ∃ n, Host.Core.run core n s = .next t := by
  induction h using Relation.ReflTransGen.head_induction_on with
  | refl => exact ⟨0, rfl⟩
  | head hstep _ ih =>
    obtain ⟨n, hrun⟩ := ih
    exact ⟨n + 1, (core_run_succ n hstep).trans hrun⟩

theorem hostAt_of_idle {s : State} {l : HostLine} (hb : s.status.busy = false)
    (hl : s.host.script[s.host.line]? = some l) : HostAt s l := ⟨by simp [coreTurn, hb], hl⟩

/-! ### The operand writes -/

/-- R42, R66: by induction on the writes; a register written once keeps its word, and no other register is touched. -/
theorem reaches_operands_written {ks : List (Fin 5)} {vs : List Word} {s : State} {rest : List HostLine}
    (hlen : vs.length = ks.length) (hnodup : ks.Nodup) (hb : s.status.busy = false)
    (hscript : s.host.script.drop s.host.line = operandLines ks vs ++ rest) :
    ∃ t, Reaches s t ∧ t.status = s.status ∧ t.host.script = s.host.script ∧ t.host.line = s.host.line + vs.length ∧
      (∀ kv ∈ ks.zip vs, t.opr.get kv.1 = ⟨kv.2, true⟩) ∧ ∀ j ∉ ks, t.opr.get j = s.opr.get j := by
  induction ks generalizing vs s with
  | nil =>
    obtain rfl : vs = [] := List.length_eq_zero_iff.1 hlen
    exact ⟨s, .refl, rfl, rfl, rfl, nofun, fun _ _ => rfl⟩
  | cons k ks ih =>
    obtain ⟨v, vs, rfl⟩ := List.exists_cons_of_length_eq_add_one hlen
    obtain ⟨hk, hnodup⟩ := List.nodup_cons.1 hnodup
    have hline : s.host.script[s.host.line]? = some (.write (oprIndex k) v) := by
      rw [← List.head?_drop, hscript]
      rfl
    have hstep : StepsTo s (s.tick.writeOpr k v) :=
      (step_of_write (hostAt_of_idle hb hline)).trans (regWrite_oprIndex k v s.tick)
    have hdrop : (s.tick.writeOpr k v).host.script.drop (s.tick.writeOpr k v).host.line = operandLines ks vs ++ rest := by
      rw [State.writeOpr_host, State.tick_host, ← List.tail_drop, hscript]
      rfl
    obtain ⟨t, hreach, hst, hsc, hln, hwritten, hother⟩ :=
      ih (s := s.tick.writeOpr k v) (by simpa using hlen) hnodup hb hdrop
    refine ⟨t, .head hstep hreach, hst, hsc, ?_, ?_, fun j hj => ?_⟩
    · simp [hln, Nat.add_assoc, Nat.add_comm]
    · rw [List.zip_cons_cons, List.forall_mem_cons]
      exact ⟨by simp [hother k hk], hwritten⟩
    · obtain ⟨hjk, hjks⟩ := not_or.1 (mt List.mem_cons.2 hj)
      simp [hother j hjks, OprFile.get_write_other _ _ hjk]

/-- The values of a CALL, held by the registers of its command, leave none of them unwritten (R36). -/
theorem firstUnwritten_of_zip {i : Instr} {vs : List Word} {f : OprFile} (hlen : vs.length = (operandsOf i).length)
    (h : ∀ kv ∈ (operandsOf i).zip vs, f.get kv.1 = ⟨kv.2, true⟩) : firstUnwritten i f = none := by
  refine firstUnwritten_eq_none.2 fun k hk => ?_
  rw [← List.map_fst_zip (l₁ := operandsOf i) (l₂ := vs) (by omega)] at hk
  obtain ⟨kv, hkv, rfl⟩ := List.mem_map.1 hk
  rw [h kv hkv]

/-! ### WAIT -/

/-- The host is in the WAIT at line `n`: at its `RD STATUS`, or at its BNZ after a STATUS word with BUSY = 1 (R66). -/
def PollsAt (n : Nat) (s : State) : Prop :=
  s.host.script[n]? = some (.read statusIndex) ∧ s.host.script[n + 1]? = some (.bnz .busy n) ∧
    (s.host.line = n ∨
      s.host.line = n + 1 ∧ ∃ w, s.host.statusSeen = some w ∧ fieldNonzero .busy w = true)

theorem step_of_read_status {s : State} (h : HostAt s (.read statusIndex)) :
    step s = .next (s.tick.received statusIndex s.status.word) :=
  step_of_read_ok h (regRead_status s)

/-- R66: while BUSY = 1 the host does not leave its WAIT, and the latency of the command runs. -/
theorem step_keeps_polling {n : Nat} {s : State} (hp : PollsAt n s) (hb : s.status.busy = true)
    (hc : coreTurn s = false) : ∃ t, StepsTo s t ∧ PollsAt n t ∧ SameBlock s t ∧
      t.host.script = s.host.script ∧ t.timing.wait = s.timing.wait - 1 := by
  obtain ⟨hread, hbnz, hline | ⟨hline, w, hw, hbit⟩⟩ := hp
  · have hbit : fieldNonzero .busy s.status.word = true := (fieldNonzero_word .busy s.status).trans hb
    exact ⟨_, step_of_read_status ⟨hc, by rwa [hline]⟩,
      ⟨hread, hbnz, .inr ⟨congrArg (· + 1) hline, _, rfl, hbit⟩⟩, .refl s, rfl, rfl⟩
  · have hstep := step_of_bnz (s := s) ⟨hc, by rwa [hline]⟩ hw
    rw [if_pos hbit] at hstep
    exact ⟨_, hstep, ⟨hread, hbnz, .inl rfl⟩, .refl s, rfl, rfl⟩

theorem stepsTo_complete {s : State} {i : Instr} (hc : coreTurn s = true) (hd : decodeOpc s.latch.op = .op i) :
    StepsTo s (s.complete (execResults i s.latch.v)) := (step_core hc hd).trans (exec_eq i s)

/-- R26, R66: by induction on the latency, the command in flight completes while the host polls. -/
theorem reaches_completion {n : Nat} {s : State} {i : Instr} (hp : PollsAt n s) (hb : s.status.busy = true)
    (hd : decodeOpc s.latch.op = .op i) : ∃ u : State, Reaches s (u.complete (execResults i s.latch.v)) ∧
      PollsAt n u ∧ u.status = s.status ∧ u.host.script = s.host.script := by
  induction hw : s.timing.wait generalizing s with
  | zero =>
    have hc : coreTurn s = true := by simp [coreTurn, hb, hw]
    exact ⟨s, .single (stepsTo_complete hc hd), hp, rfl, rfl⟩
  | succ m ih =>
    cases hc : coreTurn s with
    | true => exact ⟨s, .single (stepsTo_complete hc hd), hp, rfl, rfl⟩
    | false =>
      obtain ⟨t, hstep, hpt, ⟨-, -, -, hst, hlatch⟩, hsc, hwt⟩ := step_keeps_polling hp hb hc
      obtain ⟨u, hreach, hpu, hstu, hscu⟩ := ih hpt (hst ▸ hb) (hlatch ▸ hd) (by omega)
      exact ⟨u, .head hstep (hlatch ▸ hreach), hpu, hstu.trans hst, hscu.trans hsc⟩

/-- R66: once BUSY = 0, the next `RD STATUS` ends the WAIT. -/
theorem reaches_end_of_wait_from_read {n : Nat} {s : State} (hp : PollsAt n s) (hb : s.status.busy = false)
    (hline : s.host.line = n) :
    ∃ t, Reaches s t ∧ SameBlock s t ∧ t.host.script = s.host.script ∧ t.host.line = n + 2 := by
  obtain ⟨hread, hbnz, -⟩ := hp
  have hbit : fieldNonzero .busy s.status.word = false := (fieldNonzero_word .busy s.status).trans hb
  have hpoll : StepsTo s (s.tick.received statusIndex s.status.word) :=
    step_of_read_status (hostAt_of_idle hb (by rwa [hline]))
  have hbranch := step_of_bnz (s := s.tick.received statusIndex s.status.word) (w := s.status.word)
    (hostAt_of_idle hb (by simpa [hline] using hbnz)) rfl
  rw [hbit, if_neg Bool.false_ne_true] at hbranch
  exact ⟨_, .head hpoll (.single hbranch), .refl s, rfl, congrArg (· + 2) hline⟩

/-- R66: once BUSY = 0, the WAIT ends, after one more poll if the host stands at its BNZ. -/
theorem reaches_end_of_wait {n : Nat} {s : State} (hp : PollsAt n s) (hb : s.status.busy = false) :
    ∃ t, Reaches s t ∧ SameBlock s t ∧ t.host.script = s.host.script ∧ t.host.line = n + 2 := by
  have ⟨hread, hbnz, hplace⟩ := hp
  obtain hline | ⟨hline, w, hw, hbit⟩ := hplace
  · exact reaches_end_of_wait_from_read hp hb hline
  · have hstep := step_of_bnz (s := s) (hostAt_of_idle hb (by rwa [hline])) hw
    rw [if_pos hbit] at hstep
    obtain ⟨t, hreach, hrest⟩ :=
      reaches_end_of_wait_from_read (s := s.tick.jump n) ⟨hread, hbnz, .inl rfl⟩ hb rfl
    exact ⟨t, .head hstep hreach, hrest⟩

/-- R26, R66: a WAIT entered with a command in flight ends after its completion, on the results it left. -/
theorem reaches_end_of_wait_completed {n : Nat} {s : State} {i : Instr} (hp : PollsAt n s)
    (hb : s.status.busy = true) (hd : decodeOpc s.latch.op = .op i) :
    ∃ t, Reaches s t ∧ t.res = (s.complete (execResults i s.latch.v)).res ∧ t.status = s.status.completed ∧
      t.host.script = s.host.script ∧ t.host.line = n + 2 := by
  obtain ⟨u, hreach, hpu, hst, hsc⟩ := reaches_completion hp hb hd
  obtain ⟨t, hreach', ⟨-, hres', -, hst', -⟩, hsc', hln'⟩ :=
    reaches_end_of_wait (s := u.complete (execResults i s.latch.v)) hpu rfl
  exact ⟨t, hreach.trans hreach', hres', hst'.trans (congrArg Status.completed hst), hsc'.trans hsc, hln'⟩

/-! ### The three reads -/

/-- The host has passed an `RD RESk` (R65). -/
def afterReadRes (s : State) (k : Fin 3) : State := s.tick.received (resIndex k) (s.res.get k).value

theorem stepsTo_afterReadRes {s : State} {k : Fin 3} (hb : s.status.busy = false)
    (hl : s.host.script[s.host.line]? = some (.read (resIndex k))) (hw : (s.res.get k).written = true) :
    StepsTo s (afterReadRes s k) :=
  step_of_read_ok (hostAt_of_idle hb hl) (by rw [regRead_res (regName_resIndex k), if_pos hw])

theorem sameBlock_afterReadRes {s t : State} (h : SameBlock s t) (k : Fin 3) : SameBlock s (afterReadRes t k) := h

/-- R66: the reads that close a CALL leave the block, and the last word they return is that of RES2. -/
theorem reaches_results_read {n : Nat} {s : State} (hb : s.status.busy = false) (hline : s.host.line = n)
    (h0 : s.host.script[n]? = some (.read (resIndex 0))) (h1 : s.host.script[n + 1]? = some (.read (resIndex 1)))
    (h2 : s.host.script[n + 2]? = some (.read (resIndex 2))) (hw : ∀ k, (s.res.get k).written = true) :
    ∃ t, Reaches s t ∧ SameBlock s t ∧ t.host.script = s.host.script ∧ t.host.line = n + 3 ∧
      t.host.readData = some (s.res.get 2).value := by
  subst hline
  have hread0 : StepsTo s (afterReadRes s 0) := stepsTo_afterReadRes hb h0 (hw 0)
  have hread1 : StepsTo (afterReadRes s 0) (afterReadRes (afterReadRes s 0) 1) := stepsTo_afterReadRes hb h1 (hw 1)
  have hread2 : StepsTo (afterReadRes (afterReadRes s 0) 1) (afterReadRes (afterReadRes (afterReadRes s 0) 1) 2) :=
    stepsTo_afterReadRes hb h2 (hw 2)
  have hblock := sameBlock_afterReadRes (sameBlock_afterReadRes (sameBlock_afterReadRes (.refl s) 0) 1) 2
  exact ⟨_, .head hread0 (.head hread1 (.single hread2)), hblock, rfl, rfl, rfl⟩

/-! ### The whole CALL -/

/-- R26, R60: the issue of a command whose operands are written puts it in flight. -/
theorem stepsTo_of_issue {s : State} {i : Instr} (hb : s.status.busy = false)
    (hl : s.host.script[s.host.line]? = some (.write cmdIndex (encode i))) (hf : firstUnwritten i s.opr = none) :
    StepsTo s (s.tick.accept (encode i)) := by
  have hf' : firstUnwritten i s.tick.opr = none := hf
  rw [StepsTo, step_of_issue (hostAt_of_idle hb hl) hb, issue, hf']

/-- Settles O60: the operand writes, the issue, the WAIT with the completion in it, and the reads, one after another. -/
theorem callReturnsTheResults : Obligations.CallReturnsTheResults := by
  intro i vs lines s hasm hb hhost
  obtain ⟨hlen, rfl⟩ := assemble_call_eq_some_iff.1 hasm
  have hline := getElem?_callLines (i := i) hlen
  have hstart : s.host.script.drop s.host.line = operandLines (operandsOf i) vs ++ callTail i vs.length := by
    rw [hhost]
    rfl
  obtain ⟨s₁, hreach₁, hst₁, hsc₁, hln₁, hwritten, -⟩ :=
    reaches_operands_written hlen (nodup_operandsOf i) hb hstart
  simp only [hhost, Nat.zero_add] at hsc₁ hln₁
  have hissue : StepsTo s₁ (s₁.tick.accept (encode i)) :=
    stepsTo_of_issue (hst₁ ▸ hb) (by rw [hsc₁, hln₁]; exact hline 0) (firstUnwritten_of_zip hlen hwritten)
  have hpolls : PollsAt (vs.length + 1) (s₁.tick.accept (encode i)) :=
    ⟨(congrArg (·[vs.length + 1]?) hsc₁).trans (hline 1), (congrArg (·[vs.length + 2]?) hsc₁).trans (hline 2),
      .inl (congrArg (· + 1) hln₁)⟩
  obtain ⟨s₂, hreach₂, hres₂, hst₂, hsc₂, hln₂⟩ := reaches_end_of_wait_completed (i := i) hpolls rfl (by simp)
  replace hsc₂ : s₂.host.script = callLines i vs := hsc₂.trans hsc₁
  obtain ⟨t, hreach₃, ⟨-, hres₃, -, hst₃, -⟩, hsc₃, hln₃, hdata⟩ := reaches_results_read (hst₂ ▸ rfl) hln₂
    (hsc₂ ▸ hline 3) (hsc₂ ▸ hline 4) (hsc₂ ▸ hline 5) (fun k => hres₂ ▸ State.complete_res_written _ _ k)
  obtain ⟨n, hrun⟩ := exists_run_of_reaches (hreach₁.trans (.head hissue (hreach₂.trans hreach₃)))
  refine ⟨n, t, s₁.opr.words, hrun, ?_, fun kv hkv => ?_, ?_, hst₃.trans hst₂, ?_⟩
  · simp [hostFinished, hsc₃, hsc₂, hln₃, length_callLines hlen]
  · rw [OprFile.get_words, hwritten kv hkv]
  · rw [hres₃, hres₂]
    rfl
  · rw [hdata, hres₃]
    rfl

end Sys2Proof.Claims
end

section
/-! SUPPORT. The results of the modular adder and multiplier, word by word (R70 to R75), with what the spec draws from
them under R76 and R77. -/

namespace Sys2Proof.Machine

open Sys2Proof.Claims

theorem romP_eq_fieldModulus : romP = (fieldModulus : Int) := by decide

theorem modP_eq (v : Int) : modP v = v % fieldModulus := by
  rw [modP, romP_eq_fieldModulus]

theorem toNat_toWord_modP (v : Int) : ((toWord (modP v)).toNat : Int) = v % fieldModulus :=
  (uInt_toWord_modP v).trans (modP_eq v)

theorem toNat_toWord_modP_natCast (n : Nat) : (toWord (modP n)).toNat = n % fieldModulus := by
  exact_mod_cast toNat_toWord_modP n

theorem toNat_toWord_modz (v : Int) (m : Word) :
    ((toWord (modz v m)).toNat : Int) = if m.toNat = 0 then 0 else v % m.toNat :=
  (uInt_toWord_modz v m).trans (modz_eq v m)

theorem toNat_toWord_modz_natCast (n : Nat) (m : Word) :
    (toWord (modz n m)).toNat = if m.toNat = 0 then 0 else n % m.toNat := by
  exact_mod_cast toNat_toWord_modz n m

/-! ### RES0 of each command, as a number (R70 to R75) -/

theorem toNat_faddResults_r0 (a b : Word) : (faddResults a b).r0.toNat = (a.toNat + b.toNat) % fieldModulus :=
  toNat_toWord_modP_natCast (a.toNat + b.toNat)

theorem toNat_fsubResults_r0 (a b : Word) :
    ((fsubResults a b).r0.toNat : Int) = ((a.toNat : Int) - b.toNat) % fieldModulus :=
  toNat_toWord_modP (uInt a - uInt b)

theorem toNat_fmulResults_r0 (a b : Word) : (fmulResults a b).r0.toNat = (a.toNat * b.toNat) % fieldModulus :=
  toNat_toWord_modP_natCast (a.toNat * b.toNat)

theorem toNat_addmodResults_r0 (a b m : Word) :
    (addmodResults a b m).r0.toNat = if m.toNat = 0 then 0 else (a.toNat + b.toNat) % m.toNat :=
  toNat_toWord_modz_natCast (a.toNat + b.toNat) m

theorem toNat_submodResults_r0 (a b m : Word) :
    ((submodResults a b m).r0.toNat : Int) = if m.toNat = 0 then 0 else ((a.toNat : Int) - b.toNat) % m.toNat :=
  toNat_toWord_modz (uInt a - uInt b) m

theorem toNat_mulmodResults_r0 (a b m : Word) :
    (mulmodResults a b m).r0.toNat = if m.toNat = 0 then 0 else (a.toNat * b.toNat) % m.toNat :=
  toNat_toWord_modz_natCast (a.toNat * b.toNat) m

/-! ### The laws of R76 and the source's form of R77 -/

theorem faddResults_comm (a b : Word) : faddResults a b = faddResults b a := by
  rw [faddResults, faddResults, add_comm]

theorem fmulResults_comm (a b : Word) : fmulResults a b = fmulResults b a := by
  rw [fmulResults, fmulResults, mul_comm]

/-- R76: adding the residue of -b is subtracting b, since an inner reduction does not change the residue of a sum. -/
theorem fsubResults_eq_faddResults (a b : Word) : fsubResults a b = faddResults a (fsubResults 0#256 b).r0 := by
  have hneg : uInt (fsubResults 0#256 b).r0 = modP (0 - uInt b) := uInt_toWord_modP _
  rw [faddResults, hneg, fsubResults, modP, modP, modP, Int.add_emod_emod, zero_sub, ← sub_eq_add_neg]

theorem addmodResults_romP (a b : Word) : addmodResults a b Config.rom.p = faddResults a b :=
  congrArg Results.one (modz_romP _)

theorem submodResults_romP (a b : Word) : submodResults a b Config.rom.p = fsubResults a b :=
  congrArg Results.one (modz_romP _)

theorem mulmodResults_romP (a b : Word) : mulmodResults a b Config.rom.p = fmulResults a b :=
  congrArg Results.one (modz_romP _)

/-- R77: for b ≤ m the natural difference m - b is exact, and the m in it does not change the residue. -/
theorem toNat_submodResults_r0_of_le (a : Word) {b m : Word} (hm : 0 < m.toNat) (hb : b.toNat ≤ m.toNat) :
    (submodResults a b m).r0.toNat = (a.toNat + (m.toNat - b.toNat)) % m.toNat := by
  have hshift : (a.toNat : Int) + (m.toNat - b.toNat) = a.toNat - b.toNat + m.toNat := by ring
  zify [hb]
  rw [toNat_submodResults_r0, if_neg hm.ne', hshift, Int.add_emod_right]

end Sys2Proof.Machine

namespace Sys2Proof.Claims

open Sys2Proof.Machine

/-- R26: `exec_eq`, in the words of the statements. -/
theorem completesWith_execResults (i : Instr) (s : State) : CompletesWith i s (execResults i s.latch.v) := exec_eq i s

/-- Settles O6. -/
theorem faddAddsModuloP : Obligations.FaddAddsModuloP :=
  ⟨decode_encode .fadd, fun s => ⟨_, toNat_faddResults_r0 _ _, completesWith_execResults .fadd s⟩⟩

/-- Settles O7. -/
theorem fsubSubtractsModuloP : Obligations.FsubSubtractsModuloP :=
  ⟨decode_encode .fsub, fun s => ⟨_, toNat_fsubResults_r0 _ _, completesWith_execResults .fsub s⟩⟩

/-- Settles O8. -/
theorem fmulMultipliesModuloP : Obligations.FmulMultipliesModuloP :=
  ⟨decode_encode .fmul, fun s => ⟨_, toNat_fmulResults_r0 _ _, completesWith_execResults .fmul s⟩⟩

/-- Settles O9. -/
theorem addmodAddsModuloOperand : Obligations.AddmodAddsModuloOperand :=
  ⟨decode_encode .addmod, fun s => ⟨_, toNat_addmodResults_r0 _ _ _, completesWith_execResults .addmod s⟩⟩

/-- Settles O10. -/
theorem submodSubtractsModuloOperand : Obligations.SubmodSubtractsModuloOperand :=
  ⟨decode_encode .submod, fun s => ⟨_, toNat_submodResults_r0 _ _ _, completesWith_execResults .submod s⟩⟩

/-- Settles O11. -/
theorem mulmodMultipliesModuloOperand : Obligations.MulmodMultipliesModuloOperand :=
  ⟨decode_encode .mulmod, fun s => ⟨_, toNat_mulmodResults_r0 _ _ _, completesWith_execResults .mulmod s⟩⟩

/-- Settles O12. -/
theorem fieldArithmeticLaws : Obligations.FieldArithmeticLaws := fun a b =>
  ⟨faddResults_comm a b, fmulResults_comm a b, fsubResults_eq_faddResults a b, addmodResults_romP a b,
    submodResults_romP a b, mulmodResults_romP a b⟩

/-- Settles O13: with m = P, FSUB is SUBMOD (R76), so its clause is the first one. -/
theorem sourceSubtractionFormAgrees : Obligations.SourceSubtractionFormAgrees := by
  intro a b m hm hb
  have hsub := toNat_submodResults_r0_of_le a hm hb
  refine ⟨hsub, fun hp => ?_⟩
  rwa [hp, submodResults_romP, ← hp] at hsub

end Sys2Proof.Claims
end

section
/-! SUPPORT. Results stay below their modulus (R76, R81, R88, R95, R100). -/

namespace Sys2Proof.Machine

open Sys2Proof.Claims

/-! ### The inverter's Bézout pair -/

/-- What holds before the loop of R80 and is kept by each iteration of its body holds after any number of iterations. -/
theorem InvState.run_induction {Q : InvState → Prop} (hstep : ∀ s, s.z ≠ 0 → Q s → Q s.iterate) (fuel : Nat)
    {s : InvState} (hs : Q s) : Q (s.run fuel) := by
  induction fuel generalizing s with
  | zero => exact hs
  | succ fuel ih =>
    rw [InvState.run]
    split
    case isTrue => exact hs
    case isFalse hz => exact ih (hstep s hz hs)

/-- Both variables of the Bézout pair are residues mod P. -/
def InvState.BezoutReduced (s : InvState) : Prop := (0 ≤ s.t ∧ s.t < romP) ∧ 0 ≤ s.newT ∧ s.newT < romP

theorem InvState.bezoutReduced_start (z0 : Word) : (InvState.start z0).BezoutReduced :=
  ⟨⟨le_rfl, romP_pos⟩, zero_le_one, (by decide : (1 : Int) < romP)⟩

/-- R80: an iteration moves newT to t, and its new newT is a residue. -/
theorem InvState.bezoutReduced_iterate {s : InvState} (hs : s.BezoutReduced) : s.iterate.BezoutReduced :=
  ⟨hs.2, modP_nonneg _, modP_lt _⟩

theorem modularInverse_nonneg_and_lt (z0 : Word) : 0 ≤ modularInverse z0 ∧ modularInverse z0 < romP :=
  (InvState.run_induction (Q := InvState.BezoutReduced) (fun _ _ => InvState.bezoutReduced_iterate) _
    (InvState.bezoutReduced_start z0)).1

/-! ### Results below P -/

/-- RES0, RES1 and RES2 are below P. -/
def Results.BelowP (r : Results) : Prop :=
  r.r0.toNat < fieldModulus ∧ r.r1.toNat < fieldModulus ∧ r.r2.toNat < fieldModulus

theorem toNat_toWord_lt_fieldModulus {v : Int} (h0 : 0 ≤ v) (h1 : v < romP) : (toWord v).toNat < fieldModulus := by
  have hword : ((toWord v).toNat : Int) = v := toNat_toWord h0 (h1.trans (by decide))
  rw [romP_eq_fieldModulus, ← hword] at h1
  exact_mod_cast h1

theorem toNat_toWord_modP_lt (v : Int) : (toWord (modP v)).toNat < fieldModulus :=
  toNat_toWord_lt_fieldModulus (modP_nonneg v) (modP_lt v)

theorem toNat_zero_lt_fieldModulus : (0#256).toNat < fieldModulus := by decide

theorem Results.BelowP.one {v : Int} (h0 : 0 ≤ v) (h1 : v < romP) : (Results.one v).BelowP :=
  ⟨toNat_toWord_lt_fieldModulus h0 h1, toNat_zero_lt_fieldModulus, toNat_zero_lt_fieldModulus⟩

theorem Results.BelowP.one_modP (v : Int) : (Results.one (modP v)).BelowP := .one (modP_nonneg v) (modP_lt v)

theorem Results.BelowP.ofBool (c : Bool) : (Results.ofBool c).BelowP := by
  cases c
  · exact .one le_rfl romP_pos
  · exact .one zero_le_one (by decide)

theorem belowP_finvResults (z0 : Word) : (finvResults z0).BelowP :=
  .one (modularInverse_nonneg_and_lt z0).1 (modularInverse_nonneg_and_lt z0).2

theorem belowP_toaffResults (x y z : Word) : (toaffResults x y z).BelowP :=
  ⟨toNat_toWord_modP_lt _, toNat_toWord_modP_lt _, toNat_zero_lt_fieldModulus⟩

theorem belowP_jaddResults (x1 y1 z1 x2 y2 : Word) : (jaddResults x1 y1 z1 x2 y2).BelowP :=
  ⟨toNat_toWord_modP_lt _, toNat_toWord_modP_lt _, toNat_toWord_modP_lt _⟩

/-! ### Results below an operand modulus -/

theorem toNat_toWord_modz_lt (v : Int) {m : Word} (hm : 0 < m.toNat) : (toWord (modz v m)).toNat < m.toNat := by
  have hlt : uInt (toWord (modz v m)) < uInt m := by
    rw [uInt_toWord_modz]
    exact modz_lt (Int.natCast_ne_zero.2 hm.ne')
  exact Int.ofNat_lt.1 hlt

end Sys2Proof.Machine

namespace Sys2Proof.Claims

open Sys2Proof.Machine

/-- Settles O14, command by command: each result is a reduced value, the inverter's t, a boolean or 0. -/
theorem resultsAreReduced : Obligations.ResultsAreReduced := by
  intro v
  refine ⟨?_, fun hm => ?_⟩
  · simp only [List.forall_mem_cons, List.not_mem_nil, false_imp_iff, implies_true, and_true]
    exact ⟨Results.BelowP.one_modP _, Results.BelowP.one_modP _, Results.BelowP.one_modP _, belowP_finvResults _,
      Results.BelowP.ofBool _, Results.BelowP.ofBool _, belowP_toaffResults _ _ _, belowP_jaddResults _ _ _ _ _⟩
  · simp only [List.forall_mem_cons, List.not_mem_nil, false_imp_iff, implies_true, and_true]
    exact ⟨toNat_toWord_modz_lt _ hm, toNat_toWord_modz_lt _ hm, toNat_toWord_modz_lt _ hm⟩

end Sys2Proof.Claims
end

section
/-! SUPPORT. The inverter's loop, iteration by iteration: its remainders are those of the Euclidean algorithm on P and
z0, so it ends, and t is the Bézout coefficient of z0 (R80 to R86). -/

namespace Sys2Proof.Machine

open Sys2Proof.Claims

/-! ### One iteration, and the loop -/

/-- The new newT of R80 is the exact residue of the source's form t - q · newT (R77). -/
theorem modP_add_romP_sub_modP (t v : Int) : modP (t + (romP - modP v)) = (t - v) % romP := by
  have hshift : t + (romP - v % romP) = t - v % romP + romP := by ring
  rw [modP, modP, hshift, Int.add_emod_right, Int.sub_emod_emod]

theorem one_emod_romP : (1 : Int) % romP = 1 := by decide

theorem InvState.iterate_eq (s : InvState) :
    s.iterate = ⟨s.z, s.r % s.z, s.newT, (s.t - s.r / s.z * s.newT) % romP⟩ := by
  rw [InvState.iterate, modP_add_romP_sub_modP, mul_comm _ s.z, ← Int.emod_def]

@[simp] theorem InvState.iterate_r (s : InvState) : s.iterate.r = s.z := rfl

@[simp] theorem InvState.iterate_t (s : InvState) : s.iterate.t = s.newT := rfl

@[simp] theorem InvState.iterate_z (s : InvState) : s.iterate.z = s.r % s.z := by rw [iterate_eq]

@[simp] theorem InvState.iterate_newT (s : InvState) :
    s.iterate.newT = (s.t - s.r / s.z * s.newT) % romP := by rw [iterate_eq]

/-- The zero test comes first: once z = 0 no iteration changes anything (R80). -/
theorem InvState.run_of_z_eq_zero {s : InvState} (hz : s.z = 0) (n : Nat) : s.run n = s := by
  cases n with
  | zero => rfl
  | succ n => rw [InvState.run, if_pos hz]

theorem InvState.run_succ_of_z_ne_zero {s : InvState} (hz : s.z ≠ 0) (n : Nat) : s.run (n + 1) = s.iterate.run n := by
  rw [InvState.run, if_neg hz]

theorem InvState.run_add (m n : Nat) (s : InvState) : s.run (m + n) = (s.run m).run n := by
  induction m generalizing s with
  | zero => rw [Nat.zero_add, InvState.run]
  | succ m ih =>
    by_cases hz : s.z = 0
    · simp only [run_of_z_eq_zero hz]
    · rw [Nat.add_right_comm, run_succ_of_z_ne_zero hz, run_succ_of_z_ne_zero hz, ih]

/-- A loop that has ended is in one state, however many iterations were allowed. -/
theorem InvState.run_eq_of_ended {s : InvState} {m n : Nat} (hm : (s.run m).z = 0) (hn : (s.run n).z = 0) :
    s.run m = s.run n := by
  rw [← run_of_z_eq_zero hm n, ← run_add, Nat.add_comm, run_add, run_of_z_eq_zero hn]

/-- A loop that ends within its fuel is a run of the loop of R80. -/
theorem InvState.inverterRun_of_ended {n : Nat} {s : InvState} (h : (s.run n).z = 0) :
    InverterRun s.r s.z s.t s.newT (s.run n).t := by
  induction n generalizing s with
  | zero =>
    have hz : s.z = 0 := h
    rw [hz]
    exact .ends _ _ _
  | succ n ih =>
    by_cases hz : s.z = 0
    · rw [run_of_z_eq_zero hz, hz]
      exact .ends _ _ _
    · rw [run_succ_of_z_ne_zero hz] at h ⊢
      have hrest := ih h
      rw [InvState.iterate, modP, modP, romP_eq_fieldModulus] at hrest
      exact .turn _ _ _ _ _ hz hrest

/-! ### The remainders (R82) -/

/-- The remainder pair of the loop started with z0, through its iterations (R82). -/
inductive InvState.RemainderPhase (z0 : Word) (s : InvState) : Prop where
  /-- Before the first iteration. -/
  | initial : s.r = romP → s.z = uInt z0 → RemainderPhase z0 s
  /-- After the first iteration, when it had q = 0. -/
  | swapped : romP < uInt z0 → s.r = uInt z0 → s.z = romP → RemainderPhase z0 s
  /-- After every other iteration. -/
  | ordered : 0 ≤ s.z → s.z < s.r → s.r ≤ romP → RemainderPhase z0 s

namespace InvState

variable {s : InvState} {z0 : Word}

/-- A division by a z in (0, P] leaves ordered remainders. -/
theorem remainderPhase_iterate_of_z_le (hpos : 0 < s.z) (hle : s.z ≤ romP) : RemainderPhase z0 s.iterate :=
  .ordered (by simpa using Int.emod_nonneg s.r hpos.ne') (by simpa using Int.emod_lt_of_pos s.r hpos) hle

theorem RemainderPhase.z_nonneg (h : RemainderPhase z0 s) : 0 ≤ s.z := by
  cases h with
  | initial _ hz => exact hz ▸ uInt_nonneg z0
  | swapped _ _ hz => exact hz ▸ romP_pos.le
  | ordered hz _ _ => exact hz

theorem RemainderPhase.iterate (h : RemainderPhase z0 s) (hne : s.z ≠ 0) : RemainderPhase z0 s.iterate := by
  have hpos : 0 < s.z := lt_of_le_of_ne h.z_nonneg hne.symm
  cases h with
  | initial hr hz =>
    obtain hgt | hle := lt_or_ge romP s.z
    · exact .swapped (hz ▸ hgt) hz (by rw [iterate_z, hr, Int.emod_eq_of_lt romP_pos.le hgt])
    · exact remainderPhase_iterate_of_z_le hpos hle
  | swapped _ _ hz => exact remainderPhase_iterate_of_z_le hpos hz.le
  | ordered _ hlt hr => exact remainderPhase_iterate_of_z_le hpos (hlt.le.trans hr)

theorem remainderPhase_run (z0 : Word) (n : Nat) : RemainderPhase z0 ((start z0).run n) :=
  run_induction (fun _ hz h => h.iterate hz) n (.initial rfl rfl)

theorem RemainderPhase.r_pos (h : RemainderPhase z0 s) : 0 < s.r := by
  cases h with
  | initial hr _ => exact hr ▸ romP_pos
  | swapped hgt hr _ => exact hr ▸ romP_pos.trans hgt
  | ordered hz hlt _ => exact hz.trans_lt hlt

theorem RemainderPhase.r_le (h : RemainderPhase z0 s) : s.r ≤ max romP (uInt z0) := by
  cases h with
  | initial hr _ => exact hr ▸ le_max_left _ _
  | swapped _ hr _ => exact hr ▸ le_max_right _ _
  | ordered _ _ hr => exact le_max_of_le_left hr

theorem RemainderPhase.z_le (h : RemainderPhase z0 s) : s.z ≤ max romP (uInt z0) := by
  cases h with
  | initial _ hz => exact hz ▸ le_max_right _ _
  | swapped _ _ hz => exact hz ▸ le_max_left _ _
  | ordered _ hlt hr => exact le_max_of_le_left (hlt.le.trans hr)

theorem RemainderPhase.quotient_nonneg (h : RemainderPhase z0 s) : 0 ≤ s.r / s.z :=
  Int.ediv_nonneg h.r_pos.le h.z_nonneg

/-- The quotient is at most r, and r is at most P unless the remainders were swapped; then z is P and z0 < P · P. -/
theorem RemainderPhase.quotient_le (h : RemainderPhase z0 s) : s.r / s.z ≤ romP := by
  have hself : s.r / s.z ≤ s.r := Int.ediv_le_self _ h.r_pos.le
  cases h with
  | initial hr _ => exact hself.trans hr.le
  | swapped _ hr hz =>
    rw [hr, hz]
    exact Int.ediv_le_of_le_mul romP_pos ((uInt_lt z0).le.trans (by decide))
  | ordered _ _ hr => exact hself.trans hr

/-! ### The loop ends (R83) -/

/-- z decreases in every iteration, the swapping one among them. -/
theorem z_run_eq_zero_of_z_le (n : Nat) {s : InvState} (h0 : 0 ≤ s.z) (hn : s.z ≤ n) : (s.run n).z = 0 := by
  induction n generalizing s with
  | zero => exact le_antisymm hn h0
  | succ n ih =>
    by_cases hz : s.z = 0
    · rwa [run_of_z_eq_zero hz]
    · have hnonneg : 0 ≤ s.r % s.z := Int.emod_nonneg s.r hz
      have hlt : s.r % s.z < s.z := Int.emod_lt_of_pos s.r (by omega)
      rw [run_succ_of_z_ne_zero hz]
      exact ih (by simpa using hnonneg) (by rw [iterate_z]; omega)

theorem z_run_start_eq_zero (z0 : Word) : ((start z0).run (z0.toNat + 2)).z = 0 :=
  z_run_eq_zero_of_z_le _ (uInt_nonneg z0) (by simp [start, uInt_eq])

/-- Lamé's theorem: if n iterations do not end the loop, the remainders are at least Fibonacci numbers, since
r ≥ z + r mod z. -/
theorem fib_le_of_z_run_ne_zero {n : Nat} {s : InvState} (h0 : 0 ≤ s.z) (hlt : s.z < s.r) (h : (s.run n).z ≠ 0) :
    (Nat.fib (n + 2) : Int) ≤ s.z ∧ (Nat.fib (n + 3) : Int) ≤ s.r := by
  induction n generalizing s with
  | zero =>
    have hz : s.z ≠ 0 := h
    have hpos : 1 ≤ s.z := by omega
    exact ⟨hpos, hpos.trans_lt hlt⟩
  | succ n ih =>
    have hz : s.z ≠ 0 := fun hz => h (by rwa [run_of_z_eq_zero hz])
    have hpos : 0 < s.z := by omega
    rw [run_succ_of_z_ne_zero hz] at h
    obtain ⟨hrem, hfib⟩ := ih (by simpa using Int.emod_nonneg s.r hz) (by simpa using Int.emod_lt_of_pos s.r hpos) h
    rw [iterate_z] at hrem
    rw [iterate_r] at hfib
    have hq : 1 ≤ s.r / s.z := (Int.le_ediv_iff_mul_le hpos).2 (by omega)
    refine ⟨hfib, ?_⟩
    calc (Nat.fib (n + 1 + 3) : Int)
        = Nat.fib (n + 2) + Nat.fib (n + 3) := by exact_mod_cast Nat.fib_add_two
      _ ≤ s.r % s.z + s.z := add_le_add hrem hfib
      _ ≤ s.r % s.z + s.z * (s.r / s.z) := by gcongr; exact le_mul_of_one_le_right hpos.le hq
      _ = s.r := Int.emod_add_mul_ediv s.r s.z

theorem romP_lt_fib : romP < Nat.fib (369 + 3) := by
  rw [romP_eq]
  norm_num

theorem z_run_369_eq_zero (hz0 : uInt z0 < romP) : ((start z0).run 369).z = 0 := by
  by_contra hne
  obtain ⟨-, hfib⟩ := fib_le_of_z_run_ne_zero (s := start z0) (uInt_nonneg z0) hz0 hne
  exact romP_lt_fib.not_ge hfib

/-! ### The swap above P (R85) -/

/-- 2^256 - P is 2^32 + 977, so a word above P is not far above it. -/
theorem uInt_lt_of_eq_add {d : Word} (hz0 : uInt z0 = romP + uInt d) : uInt d < 2 ^ 32 + 977 := by
  have hlt := uInt_lt z0
  rw [hz0, romP_eq] at hlt
  omega

theorem exists_eq_romP_add (hz0 : romP < uInt z0) : ∃ d : Word, uInt z0 = romP + uInt d ∧ 0 < uInt d := by
  have hlt := uInt_lt z0
  have hpos := romP_pos
  refine ⟨toWord (uInt z0 - romP), ?_⟩
  rw [uInt_toWord (by omega) (by omega)]
  omega

theorem run_one_start_of_romP_lt (hz0 : romP < uInt z0) : (start z0).run 1 = ⟨uInt z0, romP, 1, 0⟩ := by
  have hz : (start z0).z ≠ 0 := (romP_pos.trans hz0).ne'
  rw [run_succ_of_z_ne_zero hz, run, iterate_eq]
  simp [start, Int.emod_eq_of_lt romP_pos.le hz0, Int.ediv_eq_zero_of_lt romP_pos.le hz0]

theorem run_two_start_eq_start {d : Word} (hz0 : uInt z0 = romP + uInt d) (hpos : 0 < uInt d) :
    (start z0).run 2 = start d := by
  have hd : uInt d < romP := (uInt_lt_of_eq_add hz0).trans (by decide)
  have hrem : uInt z0 % romP = uInt d := by
    rw [hz0, Int.add_emod_left, Int.emod_eq_of_lt (uInt_nonneg d) hd]
  rw [run_add 1 1, run_one_start_of_romP_lt (by omega), run_succ_of_z_ne_zero romP_pos.ne', run, iterate_eq]
  simp [start, hrem, one_emod_romP]

theorem z_run_371_eq_zero (hz0 : romP < uInt z0) : ((start z0).run 371).z = 0 := by
  obtain ⟨d, hsum, hpos⟩ := exists_eq_romP_add hz0
  rw [run_add 2 369, run_two_start_eq_start hsum hpos]
  exact z_run_369_eq_zero ((uInt_lt_of_eq_add hsum).trans (by decide))

end InvState

/-- The result is the t of the ended loop, however many iterations were allowed. -/
theorem modularInverse_eq_of_ended {z0 : Word} {n : Nat} (h : ((InvState.start z0).run n).z = 0) :
    modularInverse z0 = ((InvState.start z0).run n).t :=
  congrArg InvState.t (InvState.run_eq_of_ended (InvState.z_run_start_eq_zero z0) h)

theorem modularInverse_eq_of_eq_add {z0 d : Word} (hz0 : uInt z0 = romP + uInt d) (hpos : 0 < uInt d) :
    modularInverse z0 = modularInverse d := by
  have hrun : (InvState.start z0).run (2 + (d.toNat + 2)) = (InvState.start d).run (d.toNat + 2) := by
    rw [InvState.run_add, InvState.run_two_start_eq_start hz0 hpos]
  rw [modularInverse_eq_of_ended (hrun ▸ InvState.z_run_start_eq_zero d), hrun, modularInverse]

theorem modularInverse_romP : modularInverse Config.rom.p = 1 :=
  (modularInverse_eq_of_ended (n := 1) (by decide)).trans (by decide)

theorem modularInverse_zero : modularInverse 0#256 = 0 := modularInverse_eq_of_ended (n := 0) rfl

/-! ### The Bézout coefficients (R84) -/

/-- r and z are congruent mod P to the multiples of z0 that the Bézout pair gives. -/
def InvState.Bezout (z0 : Word) (s : InvState) : Prop :=
  uInt z0 * s.t ≡ s.r [ZMOD romP] ∧ uInt z0 * s.newT ≡ s.z [ZMOD romP]

namespace InvState

variable {s : InvState} {z0 : Word}

theorem bezout_start (z0 : Word) : Bezout z0 (start z0) := by
  simp [Bezout, start, Int.ModEq]

theorem Bezout.iterate (h : Bezout z0 s) : Bezout z0 s.iterate := by
  obtain ⟨ht, hnewT⟩ := h
  refine ⟨hnewT, ?_⟩
  calc uInt z0 * s.iterate.newT
      ≡ uInt z0 * (s.t - s.r / s.z * s.newT) [ZMOD romP] := by
        rw [iterate_newT]
        exact (Int.mod_modEq _ _).mul_left _
    _ = uInt z0 * s.t - s.r / s.z * (uInt z0 * s.newT) := by ring
    _ ≡ s.r - s.r / s.z * s.z [ZMOD romP] := ht.sub (hnewT.mul_left _)
    _ = s.iterate.z := rfl

theorem bezout_run (z0 : Word) (n : Nat) : Bezout z0 ((start z0).run n) :=
  run_induction (fun _ _ h => h.iterate) n (bezout_start z0)

theorem gcd_iterate (s : InvState) : s.iterate.r.gcd s.iterate.z = s.r.gcd s.z := by
  rw [iterate_r, iterate_z, Int.gcd_comm, Int.gcd_emod]

theorem gcd_run_start (z0 : Word) (n : Nat) :
    ((start z0).run n).r.gcd ((start z0).run n).z = romP.gcd (uInt z0) :=
  run_induction (Q := fun s => s.r.gcd s.z = romP.gcd (uInt z0)) (fun s _ h => (gcd_iterate s).trans h) n rfl

end InvState

theorem prime_fieldModulus : fieldModulus.Prime := prime_p

theorem gcd_romP_uInt {z0 : Word} (hz0 : z0.toNat % fieldModulus ≠ 0) : romP.gcd (uInt z0) = 1 := by
  rw [romP_eq_fieldModulus, uInt_eq, Int.gcd_natCast_natCast]
  exact (prime_fieldModulus.coprime_iff_not_dvd).2 fun h => hz0 (Nat.mod_eq_zero_of_dvd h)

/-- When the loop has ended r is the gcd of P and z0, which is 1. -/
theorem r_run_start_eq_one {z0 : Word} (hz0 : z0.toNat % fieldModulus ≠ 0) :
    ((InvState.start z0).run (z0.toNat + 2)).r = 1 := by
  have hgcd := (InvState.gcd_run_start z0 (z0.toNat + 2)).trans (gcd_romP_uInt hz0)
  have hpos := (InvState.remainderPhase_run z0 (z0.toNat + 2)).r_pos
  rw [InvState.z_run_start_eq_zero, Int.gcd_zero_right] at hgcd
  omega

/-- R84, R85: the result is an inverse of every z0 that is not a multiple of P. -/
theorem mul_modularInverse_emod {z0 : Word} (hz0 : z0.toNat % fieldModulus ≠ 0) :
    uInt z0 * modularInverse z0 % romP = 1 := by
  obtain ⟨ht, -⟩ := InvState.bezout_run z0 (z0.toNat + 2)
  rw [r_run_start_eq_one hz0, Int.ModEq, one_emod_romP] at ht
  exact ht

/-! ### The result as a word -/

theorem toNat_finvResults_r0 (z0 : Word) : ((finvResults z0).r0.toNat : Int) = modularInverse z0 :=
  toNat_toWord (modularInverse_nonneg_and_lt z0).1 ((modularInverse_nonneg_and_lt z0).2.trans (by decide))

theorem mul_toNat_finvResults_mod {z0 : Word} (hz0 : z0.toNat % fieldModulus ≠ 0) :
    z0.toNat * (finvResults z0).r0.toNat % fieldModulus = 1 := by
  have h := mul_modularInverse_emod hz0
  rw [← toNat_finvResults_r0, romP_eq_fieldModulus, uInt_eq] at h
  exact_mod_cast h

/-- Only 0 and P are multiples of P, since 2P is no word (R85). -/
theorem toNat_mod_fieldModulus_ne_zero {z0 : Word} (h0 : z0 ≠ 0#256) (hP : z0 ≠ Config.rom.p) :
    z0.toNat % fieldModulus ≠ 0 := by
  have hlt := z0.isLt
  have hne0 : z0.toNat ≠ 0 := fun h => h0 (BitVec.eq_of_toNat_eq h)
  have hneP : z0.toNat ≠ fieldModulus := fun h => hP (BitVec.eq_of_toNat_eq (h.trans rom_p_toNat.symm))
  unfold fieldModulus at hneP ⊢
  omega

end Sys2Proof.Machine

namespace Sys2Proof.Claims

open Sys2Proof.Machine

/-- Settles O15: the model's fuel is enough for the loop to end (R83). -/
theorem finvRunsTheLoop : Obligations.FinvRunsTheLoop := by
  refine ⟨decode_encode .finv, fun s => ⟨_, ?_, completesWith_execResults .finv s⟩⟩
  have hrun := InvState.inverterRun_of_ended (InvState.z_run_start_eq_zero s.latch.v.v0)
  rw [← modularInverse, ← toNat_finvResults_r0] at hrun
  rw [← romP_eq_fieldModulus]
  exact hrun

/-- Settles O16: t = 0 is excluded, since z0 · 0 is not 1. -/
theorem finvIsTheInverse : Obligations.FinvIsTheInverse := by
  intro s hpos hlt
  have hinv := mul_toNat_finvResults_mod (z0 := s.latch.v.v0) (by rw [Nat.mod_eq_of_lt hlt]; exact hpos.ne')
  refine ⟨_, Nat.pos_of_ne_zero fun ht => ?_, (belowP_finvResults _).1, hinv, completesWith_execResults .finv s⟩
  simp [ht] at hinv

/-- Settles O17. -/
theorem finvAtAndAboveP : Obligations.FinvAtAndAboveP := by
  refine ⟨⟨by decide, by decide, ?_⟩, fun z0 d hz0 hpos => ?_, fun z0 h0 hP => ?_⟩
  · rw [finvResults, modularInverse_romP]
    rfl
  · have hsum : uInt z0 = romP + uInt d := by
      rw [romP_eq_fieldModulus, uInt_eq, uInt_eq, hz0, Nat.cast_add]
    have hposInt : 0 < uInt d := Int.natCast_pos.2 hpos
    refine ⟨?_, InvState.run_two_start_eq_start hsum hposInt, ?_, Int.ofNat_lt.1 (InvState.uInt_lt_of_eq_add hsum)⟩
    · rw [InvState.run_one_start_of_romP_lt (by omega), romP_eq_fieldModulus, uInt_eq]
    · rw [finvResults, finvResults, modularInverse_eq_of_eq_add hsum hposInt]
  · have hmod := toNat_mod_fieldModulus_ne_zero h0 hP
    exact ⟨hmod, mul_toNat_finvResults_mod hmod⟩

/-- Settles O18. -/
theorem finvOfZeroIsZero : Obligations.FinvOfZeroIsZero := by
  refine ⟨InvState.run_of_z_eq_zero rfl, rfl, fun s hs => ?_⟩
  have hres : finvResults s.latch.v.v0 = ⟨0#256, 0#256, 0#256⟩ := by
    rw [hs, finvResults, modularInverse_zero]
    rfl
  exact hres ▸ completesWith_execResults .finv s

/-- Settles O19: above P the loop starts anew, for z0 - P, after two iterations. -/
theorem inverterIterationsBounded : Obligations.InverterIterationsBounded := by
  refine fun z0 => ⟨InvState.z_run_start_eq_zero z0, fun _ hlt => ?_, fun hgt => ?_⟩
  · exact InvState.z_run_369_eq_zero (romP_eq_fieldModulus ▸ Int.ofNat_lt.2 hlt)
  · exact InvState.z_run_371_eq_zero (romP_eq_fieldModulus ▸ Int.ofNat_lt.2 hgt)

/-- Settles O20. -/
theorem inverterVariablesInRange : Obligations.InverterVariablesInRange := by
  intro z0 n st
  have hphase : InvState.RemainderPhase z0 st := InvState.remainderPhase_run z0 n
  obtain ⟨⟨ht0, htP⟩, hn0, hnP⟩ : st.BezoutReduced :=
    InvState.run_induction (Q := InvState.BezoutReduced) (fun _ _ => InvState.bezoutReduced_iterate) n
      (InvState.bezoutReduced_start z0)
  rw [← romP_eq_fieldModulus]
  refine ⟨ht0, htP, hn0, hnP, hphase.r_pos, hphase.r_le, hphase.z_nonneg, hphase.z_le, fun hz => ?_⟩
  have hpos : 0 < st.z := lt_of_le_of_ne hphase.z_nonneg hz.symm
  exact ⟨hphase.quotient_nonneg, hphase.quotient_le, (hphase.iterate hz).z_nonneg,
    by simpa using Int.emod_lt_of_pos st.r hpos, rfl⟩

end Sys2Proof.Claims
end

section
/-! SUPPORT. The Weierstrass validator (R87 to R91): the test as an equation between residues, and the results of the
two commands. -/

namespace Sys2Proof.Machine

open Sys2Proof.Claims

/-- R11: reductions by `modz` agree when the modulus is 0 or the residues do. -/
theorem modz_natCast_eq_iff {k n : Nat} {m : Word} :
    modz k m = modz n m ↔ m.toNat = 0 ∨ k % m.toNat = n % m.toNat := by
  rw [modz_eq, modz_eq]
  split
  case isTrue h => simp [h]
  case isFalse h => simp only [h, false_or]; exact_mod_cast Iff.rfl

/-- R87 over the natural numbers: the predicate is the equation modulo p, and true for p = 0. -/
theorem onCurve_eq_true_iff {a b p x y : Word} : onCurve a b p x y = true ↔
    p.toNat = 0 ∨ y.toNat ^ 2 % p.toNat = (x.toNat ^ 3 + a.toNat * x.toNat + b.toNat) % p.toNat := by
  have hlhs : uInt y * uInt y = ((y.toNat ^ 2 : Nat) : Int) := by
    rw [uInt_eq]; push_cast; ring
  have hrhs : uInt x * uInt x * uInt x + uInt a * uInt x + uInt b =
      ((x.toNat ^ 3 + a.toNat * x.toNat + b.toNat : Nat) : Int) := by
    simp only [uInt_eq]; push_cast; ring
  rw [onCurve, decide_eq_true_iff, hlhs, hrhs, modz_natCast_eq_iff]

/-- R88. -/
theorem oncurveResults_eq (a b p x y : Word) : oncurveResults a b p x y =
    ⟨if p.toNat = 0 ∨ y.toNat ^ 2 % p.toNat = (x.toNat ^ 3 + a.toNat * x.toNat + b.toNat) % p.toNat
      then 1#256 else 0#256, 0#256, 0#256⟩ := by
  simp only [oncurveResults, Results.ofBool_eq, onCurve_eq_true_iff]

/-- R91: the specialised test is the generic one at the ROM's coefficients. -/
theorem oncurvek1Results_eq_oncurveResults (x y : Word) :
    oncurvek1Results x y = oncurveResults 0#256 7#256 Config.rom.p x y := rfl

/-- R89. -/
theorem oncurvek1Results_eq (x y : Word) : oncurvek1Results x y =
    ⟨if y.toNat ^ 2 % fieldModulus = (x.toNat ^ 3 + 7) % fieldModulus then 1#256 else 0#256, 0#256, 0#256⟩ := by
  have hP : fieldModulus ≠ 0 := prime_fieldModulus.ne_zero
  simp [oncurvek1Results_eq_oncurveResults, oncurveResults_eq, rom_p_toNat, hP]

/-- R90: with a = 0 the linear term vanishes. -/
theorem onCurve_zero (b p x y : Word) : onCurve 0#256 b p x y =
    decide (modz (uInt y * uInt y) p = modz (uInt x * uInt x * uInt x + uInt b) p) := by
  have ha : uInt 0#256 = 0 := rfl
  rw [onCurve, ha, zero_mul, add_zero]

end Sys2Proof.Machine

namespace Sys2Proof.Claims

open Sys2Proof.Machine

theorem completesWith_of_execResults_eq {i : Instr} {s : State} {r : Results} (h : execResults i s.latch.v = r) :
    CompletesWith i s r := h ▸ completesWith_execResults i s

/-- Settles O21. -/
theorem oncurveTestsTheEquation : Obligations.OncurveTestsTheEquation :=
  ⟨decode_encode .oncurve, fun _ => completesWith_of_execResults_eq (oncurveResults_eq _ _ _ _ _)⟩

/-- Settles O22. -/
theorem oncurvek1TestsSecp256k1 : Obligations.Oncurvek1TestsSecp256k1 :=
  ⟨decode_encode .oncurvek1, fun _ => completesWith_of_execResults_eq (oncurvek1Results_eq _ _)⟩

/-- Settles O23. -/
theorem genericAndSpecialisedTestsAgree : Obligations.GenericAndSpecialisedTestsAgree := fun b p x y =>
  ⟨onCurve_zero b p x y, oncurvek1Results_eq_oncurveResults x y⟩

end Sys2Proof.Claims
end

section
/-! SUPPORT. The converters and the point adder in the field of P elements: the residues of TOAFF's and JADD's results,
the affine sum they give (R95, R100, R104), and that the sum of two curve points is a curve point. -/

namespace Sys2Proof.Machine

open Sys2Proof.Claims

/-! ### Words as elements of the field -/

/-- The field element that a word stands for. -/
def residue (w : Word) : ZMod fieldModulus := (w.toNat : ZMod fieldModulus)

@[simp] theorem intCast_uInt (w : Word) : ((uInt w : Int) : ZMod fieldModulus) = residue w := by
  rw [uInt_eq, Int.cast_natCast, residue]

@[simp] theorem intCast_modP (v : Int) : ((modP v : Int) : ZMod fieldModulus) = v := by
  rw [modP_eq, ZMod.intCast_mod]

@[simp] theorem residue_toWord_modP (v : Int) : residue (toWord (modP v)) = v := by
  rw [← intCast_uInt, uInt_toWord_modP, intCast_modP]

theorem residue_eq_zero_iff {w : Word} : residue w = 0 ↔ w.toNat % fieldModulus = 0 := by
  rw [residue, ZMod.natCast_eq_zero_iff, Nat.dvd_iff_mod_eq_zero]

theorem residue_eq_iff {v w : Word} : residue v = residue w ↔ ((v.toNat : Int) - w.toNat) % fieldModulus = 0 := by
  rw [← sub_eq_zero, ← Int.dvd_iff_emod_eq_zero, ← ZMod.intCast_zmod_eq_zero_iff_dvd]
  simp [residue]

theorem fact_prime_fieldModulus : Fact fieldModulus.Prime := ⟨prime_fieldModulus⟩

theorem two_ne_zero_in_field : (2 : ZMod fieldModulus) ≠ 0 := by
  have h : ¬ fieldModulus ∣ 2 := by decide
  exact_mod_cast mt (ZMod.natCast_eq_zero_iff 2 fieldModulus).1 h

/-- R89 in the field. -/
theorem oncurvek1Results_r0_eq_one_iff {x y : Word} :
    (oncurvek1Results x y).r0 = 1#256 ↔ residue y ^ 2 = residue x ^ 3 + 7 := by
  have hfield : y.toNat ^ 2 % fieldModulus = (x.toNat ^ 3 + 7) % fieldModulus ↔
      residue y ^ 2 = residue x ^ 3 + 7 := by
    rw [← Nat.ModEq, ← ZMod.natCast_eq_natCast_iff]
    simp [residue]
  rw [oncurvek1Results_eq, ← hfield]
  simp

/-! ### TOAFF (R95) -/

/-- R84, R85 in the field. -/
theorem residue_mul_modularInverse {z : Word} (hz : residue z ≠ 0) :
    residue z * (modularInverse z : ZMod fieldModulus) = 1 := by
  have hmod : modP (uInt z * modularInverse z) = 1 := mul_modularInverse_emod (mt residue_eq_zero_iff.2 hz)
  rw [← intCast_uInt, ← Int.cast_mul, ← intCast_modP, hmod, Int.cast_one]

theorem residue_toaffResults_r0_mul (x y : Word) {z : Word} (hz : residue z ≠ 0) :
    residue (toaffResults x y z).r0 * residue z ^ 2 = residue x := by
  have hinv := residue_mul_modularInverse hz
  simp only [toaffResults, residue_toWord_modP, Int.cast_mul, intCast_uInt]
  linear_combination (residue x * (residue z * modularInverse z + 1)) * hinv

theorem residue_toaffResults_r1_mul (x y : Word) {z : Word} (hz : residue z ≠ 0) :
    residue (toaffResults x y z).r1 * residue z ^ 3 = residue y := by
  have hinv := residue_mul_modularInverse hz
  simp only [toaffResults, residue_toWord_modP, Int.cast_mul, intCast_uInt]
  linear_combination (residue y * ((residue z * modularInverse z) ^ 2 + residue z * modularInverse z + 1)) * hinv

/-- The affine point of a Jacobian one is the only one with its coordinates up to z^2 and z^3. -/
theorem residue_toaffResults_eq {x y z : Word} {X Y : ZMod fieldModulus} (hz : residue z ≠ 0)
    (hx : residue x = X * residue z ^ 2) (hy : residue y = Y * residue z ^ 3) :
    residue (toaffResults x y z).r0 = X ∧ residue (toaffResults x y z).r1 = Y := by
  have := fact_prime_fieldModulus
  exact ⟨mul_right_cancel₀ (pow_ne_zero 2 hz) ((residue_toaffResults_r0_mul x y hz).trans hx),
    mul_right_cancel₀ (pow_ne_zero 3 hz) ((residue_toaffResults_r1_mul x y hz).trans hy)⟩

/-! ### JADD (R100) -/

/-- R100 in the field, with the sequence's products of h and i multiplied out. -/
theorem residue_jaddResults (x1 y1 z1 x2 y2 : Word) :
    let h := residue x2 * residue z1 ^ 2 - residue x1
    let r := 2 * (residue y2 * residue z1 ^ 3 - residue y1)
    let j := jaddResults x1 y1 z1 x2 y2
    residue j.r0 = r ^ 2 - 4 * h ^ 3 - 8 * residue x1 * h ^ 2 ∧
      residue j.r1 = r * (4 * residue x1 * h ^ 2 - residue j.r0) - 8 * residue y1 * h ^ 3 ∧
      residue j.r2 = 2 * residue z1 * h := by
  simp only [jaddResults, residue_toWord_modP, intCast_modP, intCast_uInt, Int.cast_sub, Int.cast_add, Int.cast_mul,
    Int.cast_ofNat]
  exact ⟨by ring, by ring, by ring⟩

section
variable {x1 y1 z1 x2 y2 : Word} {X Y lam : ZMod fieldModulus}

/-- With X the affine x of J, z3 is 2 z1^3 (x2 - X). -/
theorem residue_jaddResults_r2 (hX : residue x1 = X * residue z1 ^ 2) :
    residue (jaddResults x1 y1 z1 x2 y2).r2 = 2 * residue z1 ^ 3 * (residue x2 - X) := by
  obtain ⟨-, -, hz3⟩ := residue_jaddResults x1 y1 z1 x2 y2
  rw [hz3, hX]
  ring

/-- R104: with (X, Y) the affine point of J and lam the slope of the chord to A, the Jacobian point JADD gives has the
coordinates of the chord's third point, reflected. -/
theorem residue_jaddResults_of_slope (hX : residue x1 = X * residue z1 ^ 2) (hY : residue y1 = Y * residue z1 ^ 3)
    (hlam : lam * (residue x2 - X) = residue y2 - Y) :
    residue (jaddResults x1 y1 z1 x2 y2).r0 =
      (lam ^ 2 - X - residue x2) * residue (jaddResults x1 y1 z1 x2 y2).r2 ^ 2 ∧
    residue (jaddResults x1 y1 z1 x2 y2).r1 =
      (lam * (X - (lam ^ 2 - X - residue x2)) - Y) * residue (jaddResults x1 y1 z1 x2 y2).r2 ^ 3 := by
  have hy2 : residue y2 = Y + lam * (residue x2 - X) := (add_eq_of_eq_sub' hlam).symm
  obtain ⟨hx3, hy3, -⟩ := residue_jaddResults x1 y1 z1 x2 y2
  rw [hy3, hx3, residue_jaddResults_r2 hX, hX, hY, hy2]
  exact ⟨by ring, by ring⟩

end

/-- R104 in the field: TOAFF of JADD's result is the affine sum, for any lam that is the slope of the chord. -/
theorem residue_toaffResults_jaddResults {x1 y1 z1 x2 y2 : Word} {lam : ZMod fieldModulus}
    (hz : residue z1 ≠ 0) (hne : residue x2 ≠ residue (toaffResults x1 y1 z1).r0)
    (hlam : lam * (residue x2 - residue (toaffResults x1 y1 z1).r0) =
      residue y2 - residue (toaffResults x1 y1 z1).r1) :
    let q := toaffResults x1 y1 z1; let j := jaddResults x1 y1 z1 x2 y2; let a := toaffResults j.r0 j.r1 j.r2
    residue a.r0 = lam ^ 2 - residue q.r0 - residue x2 ∧
      residue a.r1 = lam * (residue q.r0 - residue a.r0) - residue q.r1 := by
  intro q j a
  have := fact_prime_fieldModulus
  have hX := (residue_toaffResults_r0_mul x1 y1 hz).symm
  have hY := (residue_toaffResults_r1_mul x1 y1 hz).symm
  have hz3 : residue j.r2 ≠ 0 := by
    rw [residue_jaddResults_r2 hX]
    exact mul_ne_zero (mul_ne_zero two_ne_zero_in_field (pow_ne_zero 3 hz)) (sub_ne_zero.2 hne)
  obtain ⟨hx3, hy3⟩ := residue_jaddResults_of_slope hX hY hlam
  obtain ⟨hax, hay⟩ := residue_toaffResults_eq hz3 hx3 hy3
  exact ⟨hax, by rw [hax, hay]⟩

/-! ### The chord of two curve points -/

/-- The curve of R6 over a field, as Mathlib's Weierstrass curve. -/
def shortCurve7 (K : Type) [Field K] : WeierstrassCurve.Affine K := ⟨0, 0, 0, 0, 7⟩

theorem shortCurve7_equation_iff {K : Type} [Field K] {x y : K} :
    (shortCurve7 K).Equation x y ↔ y ^ 2 = x ^ 3 + 7 := by
  simp [WeierstrassCurve.Affine.equation_iff, shortCurve7]

/-- The chord of two points of y^2 = x^3 + 7 meets the curve a third time. -/
theorem chord_sum_on_curve {K : Type} [Field K] {X Y x y lam : K} (hQ : Y ^ 2 = X ^ 3 + 7) (hA : y ^ 2 = x ^ 3 + 7)
    (hne : x ≠ X) (hlam : lam * (x - X) = y - Y) :
    (lam * (X - (lam ^ 2 - X - x)) - Y) ^ 2 = (lam ^ 2 - X - x) ^ 3 + 7 := by
  classical
  have hslope : (shortCurve7 K).slope X x Y y = lam := by
    rw [WeierstrassCurve.Affine.slope_of_X_ne hne.symm, div_eq_iff (sub_ne_zero.2 hne.symm)]
    linear_combination hlam
  have hsum := WeierstrassCurve.Affine.equation_add (shortCurve7_equation_iff.2 hQ) (shortCurve7_equation_iff.2 hA)
    (fun h => hne h.1.symm)
  rw [hslope, shortCurve7_equation_iff] at hsum
  simp only [WeierstrassCurve.Affine.addY, WeierstrassCurve.Affine.negY, WeierstrassCurve.Affine.negAddY,
    WeierstrassCurve.Affine.addX, shortCurve7] at hsum
  linear_combination hsum

end Sys2Proof.Machine

namespace Sys2Proof.Claims

open Sys2Proof.Machine

/-- Settles O33: TOAFF of the sum is the third point of the chord, reflected, and that is on the curve. -/
theorem jaddStaysOnTheCurve : Obligations.JaddStaysOnTheCurve := by
  intro x1 y1 z1 x2 y2 q j a hz hne hQ hA
  have := fact_prime_fieldModulus
  rw [oncurvek1Results_r0_eq_one_iff] at hQ hA ⊢
  have hx : residue x2 ≠ residue q.r0 := mt residue_eq_iff.1 hne
  have hlam := div_mul_cancel₀ (residue y2 - residue q.r1) (sub_ne_zero.2 hx)
  obtain ⟨hax, hay⟩ := residue_toaffResults_jaddResults (mt residue_eq_zero_iff.1 hz) hx hlam
  rw [hay, hax]
  exact chord_sum_on_curve hQ hA hx hlam

end Sys2Proof.Claims
end

section
/-! SUPPORT. The converters (R94 to R98): TOAFF's results as numbers, with zInv as FINV answers it, and the lift and
projection of a point. -/

namespace Sys2Proof.Machine

open Sys2Proof.Claims

/-- R80, R81: the word FINV answers is what the loop returns. -/
theorem inverterRun_finvResults (z0 : Word) : InverterRun fieldModulus z0.toNat 0 1 (finvResults z0).r0.toNat := by
  rw [toNat_finvResults_r0, ← romP_eq_fieldModulus]
  exact InvState.inverterRun_of_ended (InvState.z_run_start_eq_zero z0)

/-! ### RES0 and RES1 of TOAFF, as numbers (R95) -/

theorem toNat_toaffResults_r0 (x y z : Word) :
    (toaffResults x y z).r0.toNat = x.toNat * (finvResults z).r0.toNat ^ 2 % fieldModulus := by
  rw [toaffResults, ← toNat_finvResults_r0, uInt_eq, pow_two, ← mul_assoc]
  exact_mod_cast toNat_toWord_modP_natCast _

theorem toNat_toaffResults_r1 (x y z : Word) :
    (toaffResults x y z).r1.toNat = y.toNat * (finvResults z).r0.toNat ^ 3 % fieldModulus := by
  rw [toaffResults, ← toNat_finvResults_r0, uInt_eq, pow_succ, pow_two, ← mul_assoc, ← mul_assoc]
  exact_mod_cast toNat_toWord_modP_natCast _

/-! ### TOAFF where the inverter answers 0 or 1 (R97, R98) -/

theorem modularInverse_one : modularInverse 1#256 = 1 :=
  (modularInverse_eq_of_ended (n := 1) (by decide)).trans (by decide)

theorem toaffResults_zero (x y : Word) : toaffResults x y 0#256 = ⟨0#256, 0#256, 0#256⟩ := by
  simp only [toaffResults, modularInverse_zero, mul_zero]
  rfl

/-- Where the inverter answers 1, TOAFF only reduces the coordinates. -/
theorem toNat_toaffResults_of_modularInverse_eq_one (x y : Word) {z : Word} (hz : modularInverse z = 1) :
    (toaffResults x y z).r0.toNat = x.toNat % fieldModulus ∧
      (toaffResults x y z).r1.toNat = y.toNat % fieldModulus := by
  have hinv : (finvResults z).r0.toNat = 1 := by
    exact_mod_cast (toNat_finvResults_r0 z).trans hz
  rw [toNat_toaffResults_r0, toNat_toaffResults_r1, hinv, one_pow, one_pow, mul_one, mul_one]
  exact ⟨rfl, rfl⟩

end Sys2Proof.Machine

namespace Sys2Proof.Claims

open Sys2Proof.Machine

/-- Settles O24. -/
theorem tojacLiftsThePoint : Obligations.TojacLiftsThePoint :=
  ⟨decode_encode .tojac, completesWith_execResults .tojac⟩

/-- Settles O25: zInv is the word FINV answers for z. -/
theorem toaffProjectsThePoint : Obligations.ToaffProjectsThePoint := by
  refine ⟨decode_encode .toaff, fun s => ?_⟩
  have hx := toNat_toaffResults_r0 s.latch.v.v0 s.latch.v.v1 s.latch.v.v2
  have hy := toNat_toaffResults_r1 s.latch.v.v0 s.latch.v.v1 s.latch.v.v2
  exact ⟨_, _, _, inverterRun_finvResults _, hx, hy, completesWith_execResults .toaff s⟩

/-- Settles O26: TOJAC gives z = 1, which is its own inverse. -/
theorem liftThenProjectRoundTrip : Obligations.LiftThenProjectRoundTrip := by
  intro x y j a
  obtain ⟨hx, hy⟩ : a.r0.toNat = x.toNat % fieldModulus ∧ a.r1.toNat = y.toNat % fieldModulus :=
    toNat_toaffResults_of_modularInverse_eq_one x y modularInverse_one
  refine ⟨hx, hy, fun hxP hyP => ⟨BitVec.eq_of_toNat_eq ?_, BitVec.eq_of_toNat_eq ?_⟩⟩
  · rw [hx, Nat.mod_eq_of_lt hxP]
  · rw [hy, Nat.mod_eq_of_lt hyP]

/-- Settles O27: the inverter answers 0 for z = 0, and 1 for z = P. -/
theorem toaffOfDegenerateZ : Obligations.ToaffOfDegenerateZ := by
  intro x y z
  obtain ⟨hx, hy⟩ := toNat_toaffResults_of_modularInverse_eq_one x y modularInverse_romP
  refine ⟨toaffResults_zero x y, hx, hy, rfl, fun hz => ?_⟩
  by_contra hne
  obtain ⟨h0, hP⟩ := not_or.1 hne
  exact toNat_mod_fieldModulus_ne_zero h0 hP hz

/-- Settles O28: the two equations hold in the field of P elements, where z has an inverse. -/
theorem toaffGivesTheAffinePoint : Obligations.ToaffGivesTheAffinePoint := by
  intro x y z hz
  have hz0 : residue z ≠ 0 := mt residue_eq_zero_iff.1 hz
  have hx := residue_toaffResults_r0_mul x y hz0
  have hy := residue_toaffResults_r1_mul x y hz0
  simp only [residue] at hx hy
  rw [← ZMod.natCast_eq_natCast_iff', ← ZMod.natCast_eq_natCast_iff']
  push_cast
  exact ⟨hx, hy⟩

end Sys2Proof.Claims
end

section
/-! SUPPORT. JADD (R100 to R104): from equations between residues to the words that hold them, its results where the
operands share their x, and the affine sum as numbers. -/

namespace Sys2Proof.Machine

open Sys2Proof.Claims

/-! ### Words below P and their residues -/

@[simp] theorem natCast_toNat (w : Word) : (w.toNat : ZMod fieldModulus) = residue w := rfl

@[simp] theorem residue_zero : residue 0#256 = 0 := Nat.cast_zero

@[simp] theorem residue_one : residue 1#256 = 1 := Nat.cast_one

theorem emod_fieldModulus_eq_zero_iff {v : Int} : v % fieldModulus = 0 ↔ (v : ZMod fieldModulus) = 0 := by
  rw [ZMod.intCast_zmod_eq_zero_iff_dvd, Int.dvd_iff_emod_eq_zero]

/-- A word below P is the residue of every integer it stands for in the field. -/
theorem toNat_eq_emod_of_residue_eq {w : Word} {v : Int} (hw : w.toNat < fieldModulus) (h : residue w = v) :
    (w.toNat : Int) = v % fieldModulus := by
  have hcast : ((w.toNat : Int) : ZMod fieldModulus) = v := by rw [Int.cast_natCast, natCast_toNat, h]
  rw [← (ZMod.intCast_eq_intCast_iff' _ _ _).1 hcast, ← Int.natCast_mod, Nat.mod_eq_of_lt hw]

theorem eq_of_residue_eq {v w : Word} (hv : v.toNat < fieldModulus) (hw : w.toNat < fieldModulus)
    (h : residue v = residue w) : v = w := by
  have hmod := (ZMod.natCast_eq_natCast_iff' _ _ _).1 h
  rw [Nat.mod_eq_of_lt hv, Nat.mod_eq_of_lt hw] at hmod
  exact BitVec.eq_of_toNat_eq hmod

theorem eq_zero_of_residue_eq_zero {w : Word} (hw : w.toNat < fieldModulus) (h : residue w = 0) : w = 0#256 :=
  eq_of_residue_eq hw toNat_zero_lt_fieldModulus (h.trans residue_zero.symm)

theorem residue_eq_of_toNat_eq_mod {u x : Word} (h : u.toNat = x.toNat % fieldModulus) : residue u = residue x := by
  rw [residue, h, ZMod.natCast_mod, natCast_toNat]

/-- y and P - y stand for opposite field elements. -/
theorem residue_eq_neg_of_add_eq {v w : Word} (h : v.toNat + w.toNat = fieldModulus) : residue w = -residue v := by
  have hsum : residue v + residue w = 0 := by
    rw [residue, residue, ← Nat.cast_add, h, ZMod.natCast_self]
  exact (neg_eq_of_add_eq_zero_right hsum).symm

theorem Results.eq_of_words_eq {r q : Results} (h0 : r.r0 = q.r0) (h1 : r.r1 = q.r1) (h2 : r.r2 = q.r2) : r = q := by
  cases r
  cases q
  rw [Results.mk.injEq]
  exact ⟨h0, h1, h2⟩

theorem Results.BelowP.eq_of_residues_eq {r q : Results} (hr : r.BelowP) (hq : q.BelowP)
    (h0 : residue r.r0 = residue q.r0) (h1 : residue r.r1 = residue q.r1) (h2 : residue r.r2 = residue q.r2) : r = q := by
  obtain ⟨hr0, hr1, hr2⟩ := hr
  obtain ⟨hq0, hq1, hq2⟩ := hq
  exact Results.eq_of_words_eq (eq_of_residue_eq hr0 hq0 h0) (eq_of_residue_eq hr1 hq1 h1) (eq_of_residue_eq hr2 hq2 h2)

/-! ### JADD sees field elements only (R101) -/

theorem jaddResults_congr {x1 y1 z1 x2 y2 u1 w1 : Word} (hx : residue u1 = residue x1) (hy : residue w1 = residue y1) :
    jaddResults x1 y1 z1 x2 y2 = jaddResults u1 w1 z1 x2 y2 := by
  obtain ⟨hx3, hy3, hz3⟩ := residue_jaddResults x1 y1 z1 x2 y2
  obtain ⟨hx3', hy3', hz3'⟩ := residue_jaddResults u1 w1 z1 x2 y2
  rw [hx, hy] at hx3' hy3'
  rw [hx] at hz3'
  have hr0 := hx3.trans hx3'.symm
  have hr1 : residue (jaddResults x1 y1 z1 x2 y2).r1 = residue (jaddResults u1 w1 z1 x2 y2).r1 := by
    rw [hy3, hy3', hr0]
  exact (belowP_jaddResults _ _ _ _ _).eq_of_residues_eq (belowP_jaddResults _ _ _ _ _) hr0 hr1 (hz3.trans hz3'.symm)

/-! ### JADD where h is 0 (R103) -/

section
variable {x1 y1 z1 x2 y2 : Word}

/-- With h = 0 only r is left: n is any integer that stands for it. -/
theorem jaddResults_of_same_x {n : Int} (hx : residue x2 * residue z1 ^ 2 = residue x1)
    (hn : (n : ZMod fieldModulus) = 2 * (residue y2 * residue z1 ^ 3 - residue y1)) :
    let j := jaddResults x1 y1 z1 x2 y2
    (j.r0.toNat : Int) = n ^ 2 % fieldModulus ∧ (j.r1.toNat : Int) = -(n ^ 3) % fieldModulus ∧ j.r2 = 0#256 := by
  intro j
  obtain ⟨hlt0, hlt1, hlt2⟩ := belowP_jaddResults x1 y1 z1 x2 y2
  obtain ⟨hx3, hy3, hz3⟩ := residue_jaddResults x1 y1 z1 x2 y2
  rw [← hn, sub_eq_zero.2 hx] at hx3 hy3
  rw [sub_eq_zero.2 hx, mul_zero] at hz3
  refine ⟨toNat_eq_emod_of_residue_eq hlt0 ?_, toNat_eq_emod_of_residue_eq hlt1 ?_,
    eq_zero_of_residue_eq_zero hlt2 hz3⟩
  · rw [hx3]; push_cast; ring
  · rw [hy3, hx3]; push_cast; ring

/-- Doubling: with r = 0 too, all three results are 0. -/
theorem jaddResults_of_same_point (hx : residue x2 * residue z1 ^ 2 = residue x1)
    (hy : residue y2 * residue z1 ^ 3 = residue y1) : jaddResults x1 y1 z1 x2 y2 = ⟨0#256, 0#256, 0#256⟩ := by
  obtain ⟨h0, h1, h2⟩ := jaddResults_of_same_x (n := 0) hx (by rw [sub_eq_zero.2 hy, mul_zero, Int.cast_zero])
  exact Results.eq_of_words_eq (BitVec.eq_of_toNat_eq (Int.ofNat_inj.1 h0))
    (BitVec.eq_of_toNat_eq (Int.ofNat_inj.1 h1)) h2

end

theorem jaddResults_r2_of_z1_eq_zero (x1 y1 x2 y2 : Word) : (jaddResults x1 y1 0#256 x2 y2).r2 = 0#256 := by
  obtain ⟨-, -, hz3⟩ := residue_jaddResults x1 y1 0#256 x2 y2
  rw [residue_zero, mul_zero, zero_mul] at hz3
  exact eq_zero_of_residue_eq_zero (belowP_jaddResults x1 y1 0#256 x2 y2).2.2 hz3

theorem toaffResults_of_r2_eq_zero {j : Results} (h : j.r2 = 0#256) :
    toaffResults j.r0 j.r1 j.r2 = ⟨0#256, 0#256, 0#256⟩ := by
  rw [h, toaffResults_zero]

/-- The r of a negation is not 0, since neither 2 nor y is 0 in the field. -/
theorem neg_four_mul_emod_ne_zero {y : Word} (hpos : 0 < y.toNat) (hlt : y.toNat < fieldModulus) :
    -4 * (y.toNat : Int) % fieldModulus ≠ 0 := by
  have := fact_prime_fieldModulus
  have hy : residue y ≠ 0 := mt residue_eq_zero_iff.1 (by rw [Nat.mod_eq_of_lt hlt]; exact hpos.ne')
  have hfield : ((-4 * (y.toNat : Int) : Int) : ZMod fieldModulus) = -(2 * 2 * residue y) := by
    push_cast [natCast_toNat]
    ring
  rw [Ne, emod_fieldModulus_eq_zero_iff, hfield, neg_eq_zero]
  exact mul_ne_zero (mul_ne_zero two_ne_zero_in_field two_ne_zero_in_field) hy

/-! ### The affine identity as an operand (R103) -/

section
variable {K : Type} [Field K] {X Y lam x y : K}

/-- The chord from a point of the curve to (0, 0) meets the curve's equation at x = 7 / X^2. -/
theorem chord_to_origin_x_mul (hQ : Y ^ 2 = X ^ 3 + 7) (hlam : lam * X = Y) (hx : x = lam ^ 2 - X) : x * X ^ 2 = 7 := by
  rw [hx]
  linear_combination (lam * X + Y) * hlam + hQ

/-- (0, 0) is off the curve, and the chord's sum is so too unless X^3 = 7. -/
theorem chord_to_origin_off_curve (hQ : Y ^ 2 = X ^ 3 + 7) (hlam : lam * X = Y) (hx : x = lam ^ 2 - X)
    (hy : y = lam * (X - x) - Y) (h7 : (7 : K) ≠ 0) (hne : X ^ 3 ≠ 7) : y ^ 2 ≠ x ^ 3 + 7 := by
  intro hcurve
  have hxX := chord_to_origin_x_mul hQ hlam hx
  have hyx : y = -(lam * x) := by rw [hy]; linear_combination hlam
  have hx2 : X * x ^ 2 = 7 := by
    rw [hyx] at hcurve
    linear_combination hcurve + x ^ 2 * hx
  refine hne (mul_left_cancel₀ h7 ?_)
  linear_combination (x * X ^ 2 + 7) * hxX - X ^ 3 * hx2

end

theorem residue_generator_on_curve : residue Config.rom.gy ^ 2 = residue Config.rom.gx ^ 3 + 7 :=
  oncurvek1Results_r0_eq_one_iff.1 (by rw [oncurvek1Results_eq, if_pos rom_generator_satisfies_curve_equation])

theorem residue_generator_x_pow_three_ne_seven : residue Config.rom.gx ^ 3 ≠ 7 := by
  have hmod : Config.rom.gx.toNat ^ 3 % fieldModulus ≠ 7 % fieldModulus := by decide
  exact_mod_cast mt (ZMod.natCast_eq_natCast_iff' _ _ _).1 hmod

theorem seven_ne_zero_in_field : (7 : ZMod fieldModulus) ≠ 0 := by
  have h : ¬ fieldModulus ∣ 7 := by decide
  exact_mod_cast mt (ZMod.natCast_eq_zero_iff 7 fieldModulus).1 h

theorem oncurvek1Results_r0_eq_zero_iff {x y : Word} :
    (oncurvek1Results x y).r0 = 0#256 ↔ residue y ^ 2 ≠ residue x ^ 3 + 7 := by
  rw [Ne, ← oncurvek1Results_r0_eq_one_iff, oncurvek1Results_eq]
  split <;> simp

/-- JADD takes the affine identity (0, 0) as coordinates: G + (0, 0) is another point than G, and off the curve. -/
theorem jaddResults_generator_zero :
    let g := jaddResults Config.rom.gx Config.rom.gy 1#256 0#256 0#256; let a := toaffResults g.r0 g.r1 g.r2
    a.r0 ≠ Config.rom.gx ∧ (oncurvek1Results a.r0 a.r1).r0 = 0#256 := by
  intro g a
  have := fact_prime_fieldModulus
  have h1 : residue 1#256 ≠ 0 := residue_one ▸ one_ne_zero
  have hgx : residue Config.rom.gx ≠ 0 := mt residue_eq_zero_iff.1 (by decide)
  have hlam := div_mul_cancel₀ (residue Config.rom.gy) hgx
  obtain ⟨hqx, hqy⟩ := residue_toaffResults_eq (x := Config.rom.gx) (y := Config.rom.gy)
    (X := residue Config.rom.gx) (Y := residue Config.rom.gy) h1 (by simp) (by simp)
  obtain ⟨hax, hay⟩ := residue_toaffResults_jaddResults (x1 := Config.rom.gx) (y1 := Config.rom.gy) (x2 := 0#256)
    (y2 := 0#256) (lam := residue Config.rom.gy / residue Config.rom.gx) h1 (by rw [hqx, residue_zero]; exact hgx.symm)
    (by rw [hqx, hqy, residue_zero, zero_sub, zero_sub, mul_neg, hlam])
  rw [hqx, residue_zero, sub_zero] at hax
  rw [hqx, hqy] at hay
  refine ⟨fun hsame => residue_generator_x_pow_three_ne_seven ?_, oncurvek1Results_r0_eq_zero_iff.2 ?_⟩
  · have hxX := chord_to_origin_x_mul residue_generator_on_curve hlam hax
    rw [← hxX, hsame]
    ring
  · exact chord_to_origin_off_curve residue_generator_on_curve hlam hax hay seven_ne_zero_in_field
      residue_generator_x_pow_three_ne_seven

end Sys2Proof.Machine

namespace Sys2Proof.Claims

open Sys2Proof.Machine

/-- Settles O30: JADD's results are residues that depend on the operands' residues only. -/
theorem jaddReducesRawCoordinates : Obligations.JaddReducesRawCoordinates :=
  fun _ _ _ _ _ _ _ hx hy => jaddResults_congr (residue_eq_of_toNat_eq_mod hx) (residue_eq_of_toNat_eq_mod hy)

/-- Settles O31: with h = 0 the results depend on r only, which is 0 for a doubling and -4y for the negation. -/
theorem jaddOnDegenerateInputs : Obligations.JaddOnDegenerateInputs := by
  intro x1 y1 z1 x2 y2 j r
  refine ⟨fun hh => ?_, fun hz => ?_, toaffResults_of_r2_eq_zero, ?_, ?_, jaddResults_generator_zero,
    fun hpos hlt hsum => ?_⟩
  · have hx : residue x2 * residue z1 ^ 2 = residue x1 := by
      simpa [sub_eq_zero] using emod_fieldModulus_eq_zero_iff.1 hh
    obtain ⟨h0, h1, h2⟩ := jaddResults_of_same_x (n := r) (y1 := y1) (y2 := y2) hx (by simp [r])
    refine ⟨h0, h1, h2, fun hr => jaddResults_of_same_point hx ?_⟩
    simpa [sub_eq_zero] using emod_fieldModulus_eq_zero_iff.1 hr
  · subst hz
    exact jaddResults_r2_of_z1_eq_zero x1 y1 x2 y2
  · exact jaddResults_of_same_point (by simp) (by simp)
  · exact jaddResults_of_same_point (by simp) (by simp)
  · intro n r'
    have hr : (r' : ZMod fieldModulus) = 2 * (residue y2 * residue 1#256 ^ 3 - residue y1) := by
      rw [residue_eq_neg_of_add_eq hsum]
      simp only [r', ZMod.intCast_mod]
      push_cast [natCast_toNat, residue_one]
      ring
    obtain ⟨h0, h1, h2⟩ := jaddResults_of_same_x (x1 := x1) (x2 := x1) (by simp) hr
    exact ⟨neg_four_mul_emod_ne_zero hpos hlt, h0, h1, h2, toaffResults_of_r2_eq_zero h2⟩

/-- Settles O32: the affine sum in the field, read as numbers below P. -/
theorem jaddIsTheAffineSum : Obligations.JaddIsTheAffineSum := by
  intro x1 y1 z1 x2 y2 q X Y j a hz hne lam hlam
  have hslope : (lam : ZMod fieldModulus) * (residue x2 - residue q.r0) = residue y2 - residue q.r1 := by
    simpa [X, Y, sub_eq_zero] using emod_fieldModulus_eq_zero_iff.1 hlam
  obtain ⟨hax, hay⟩ :=
    residue_toaffResults_jaddResults (mt residue_eq_zero_iff.1 hz) (mt residue_eq_iff.1 hne) hslope
  obtain ⟨hlt0, hlt1, -⟩ := belowP_toaffResults j.r0 j.r1 j.r2
  refine ⟨toNat_eq_emod_of_residue_eq hlt0 ?_, toNat_eq_emod_of_residue_eq hlt1 ?_⟩
  · simpa [X] using hax
  · simpa [X, Y] using hay

/-- Settles O29: each of the statement's reductions is the model's `modP`. -/
theorem jaddRunsTheSequence : Obligations.JaddRunsTheSequence := by
  refine ⟨decode_encode .jadd, fun s => ⟨_, _, _, ?_, ?_, ?_, completesWith_execResults .jadd s⟩⟩
  all_goals simp only [← modP_eq, ← uInt_eq, uInt_toWord_modP]

end Sys2Proof.Claims
end

section
/-! SUPPORT. Host lines while a command may be in flight: a dropped CMD write (R135), an operand write (R138) and the
platform's reset (R130); and the step with nothing left to do (R143). -/

namespace Sys2Proof.Claims

open Sys2Proof.Machine

/-- R60, R135: while BUSY = 1 the word written to CMD is not looked at. -/
theorem regWrite_cmd_of_busy {s : State} (hb : s.status.busy = true) (v : Word) :
    regWrite 8#4 v s = .next s.dropWrite := by
  rw [regWrite, regName_cmdIndex, commandWrite, if_pos hb]

theorem regWrite_of_regName_opr {idx : BitVec 4} {k : Fin 5} (h : regName idx = .opr k) (v : Word) (s : State) :
    regWrite idx v s = .next (s.writeOpr k v) := by
  rw [regWrite, h]

theorem step_of_platformReset {s : State} (h : HostAt s .platformReset) : step s = .next s.tick.platformReset :=
  step_host h.1 h.2

/-- R34: STATUS reads 0 right after a reset. -/
theorem status_word_atReset : Status.atReset.word = 0#256 := by decide

/-- R26: the completion step is enabled only while BUSY = 1. -/
theorem coreTurn_eq_false_of_idle {s : State} (hb : s.status.busy = false) : coreTurn s = false := by
  simp [coreTurn, hb]

theorem core_run_one (s : State) : Host.Core.run core 1 s = step s := by
  change Host.Core.run core 1 s = core.step s
  simp only [Host.Core.run]
  cases core.step s <;> rfl

/-- Settles O38. -/
theorem commandWhileBusyIsDropped : Obligations.CommandWhileBusyIsDropped := fun s v h hb =>
  (step_of_write h).trans (regWrite_cmd_of_busy (s := s.tick) hb v)

/-- Settles O44: the index names OPR[k], and `State.writeOpr` touches the operand file alone. -/
theorem hostWritesOperandRegister : Obligations.HostWritesOperandRegister := by
  intro s idx k v h hk
  have hstep : step s = .next (s.tick.writeOpr k v) :=
    (step_of_write h).trans (regWrite_of_regName_opr (regName_opr.2 hk) v s.tick)
  exact ⟨_, hstep, s.opr.get_write_self k v, fun _ hj => s.opr.get_write_other v hj, rfl, rfl, rfl, rfl, rfl⟩

/-- Settles O48: a reset clears BUSY, without which no completion step is enabled. -/
theorem resetAbandonsTheCommand : Obligations.ResetAbandonsTheCommand := fun s h =>
  ⟨_, step_of_platformReset h, status_word_atReset, rfl, State.afterReset_opr_written (s.resets + 1),
    State.afterReset_res_written (s.resets + 1), rfl, coreTurn_eq_false_of_idle rfl⟩

/-- Settles O57: a run of one step in a quiescent state. -/
theorem quiescentBlockStaysAsItIs : Obligations.QuiescentBlockStaysAsItIs := by
  intro s hq hf
  have hb : s.status.busy = false := by simpa [State.quiescent] using hq
  exact (core_run_one s).symm.trans (core_run_of_quiescent hb hf 1)

end Sys2Proof.Claims
end
